-- ==== Sys2Proof/Word.lean ====
section
/-! DEFINITION. The word types of the device and their plainest arithmetic (R8, R9, R29). -/

namespace Sys2Proof

/-- One byte of memory. -/
abbrev Byte := BitVec 8
/-- A 32-bit item: a lane, a keeper instruction word, an accumulator word (R29, R225, R324). -/
abbrev W32 := BitVec 32
/-- A keeper register, a control register or a descriptor word (R198, R201, R282). -/
abbrev W64 := BitVec 64
/-- A lamp register, a result port or an SRAM granule (R9, R109). -/
abbrev V128 := BitVec 128
/-- One lamp bundle of eight 24-bit slots (R106). -/
abbrev Bundle := BitVec 192
/-- A compute tile, named by its local rank die*256 + y*16 + x (R15). -/
abbrev TileId := Fin 1024
/-- A lens, named by its package cluster number die*32 + (y div 2)*4 + x div 4 (R15). -/
abbrev LensId := Fin 128
/-- A keeper register number (R226). -/
abbrev KReg := BitVec 5
/-- A completion token (R208). -/
abbrev Tok := BitVec 6

end Sys2Proof
end

