-- ==== Sys2Proof/Config.lean ====
section
/-! DEFINITION. What an implementation fixes and the spec does not state: free values without a body.
No statement may rest on one of them. -/

namespace Sys2Proof.Config

/-- The identification code that the board-test port shifts out (R465 names no value; log entry 6). -/
opaque idcode : BitVec 32

/-- The level of signal ball `n` at the `k`-th capture of the board-test port (R465; log entry 6). -/
opaque ball : Nat → Nat → Bool

/-- The number of signal balls of the boundary register (R465 names none; log entry 6). -/
opaque ballCount : Nat

/-- Whether a signature is a valid Ed448 signature over a SHAKE256 digest, from a key that chains to the Irkin root (R490; the key
is not given, log entry 10). -/
opaque ed448Valid : List Byte → List Byte → Bool

/-- The management list that lightship firmware sets, none where it leaves the list as it stands (R446, R477; log entry 113). -/
opaque managementList : List Byte → Option (List W32)

/-- The key stream of AES-256-GCM on a port: byte `i` of the frame with a counter (R488; log entry 114). -/
opaque gcmStream : Nat → Nat → Nat → Byte

/-- The tag that AES-256-GCM gives a frame on a port: from the counter, what is authenticated alone, and what is encrypted (R488;
log entry 114). -/
opaque gcmTag : Nat → Nat → List Byte → List Byte → BitVec 128

/-- The bytes of the Ethernet, IPv6, UDP and PDS headers that R480 does not state: header, port, and place (log entry 114). -/
opaque headerByte : Nat → Nat → Nat → Byte

/-- The entropy value a bridge draws for the `n`-th ADAPTIVE packet (R480; log entry 4). -/
opaque entropy : Nat → BitVec 20

/-- The tag that names an SRAM granule (false) or a workspace slot (true) in the undo log (R222 gives no encoding; log entry
9). -/
opaque undoTag : Bool → Nat → BitVec 32

/-- The `n`-th value that a breach of a program obligation leaves unspecified (R1; log entry 8). -/
opaque unspecified : Nat → W64

/-- The SECDED check code over 64 bits of a cell's content (R371 gives no code; log entry 106). -/
opaque secded : BitVec 64 → BitVec 8

end Sys2Proof.Config
end

