-- ==== Sys2Proof/Syntax.lean ====
section
/-! DEFINITION. The syntax of the machine: the data that instructions and events carry, and the ONE inductive
`Instr` with a constructor for each row of spec/opcode_table.json. Keeper instructions carry the fields of
their word (R225, R226). A lamp operation is the trigger port a move writes (R117): it carries the width
or lane type that the port selects, and its operands are the latches of the bundle in execution (R115).
The other rows are whole steps of a unit and carry the unit and what comes from outside the package. -/

namespace Sys2Proof

/-- The two integer units that share opcodes 0x00-0x2E (R118). -/
inductive IntUnit where | ia | ib
  deriving DecidableEq, Repr

/-- Lane width of an integer lane operation (R133). -/
inductive LaneW where | w8 | w16 | w32
  deriving DecidableEq, Repr

/-- Lane type of an `fm` operation (R119). -/
inductive FmType where | f32 | f16 | bf16
  deriving DecidableEq, Repr

/-- Lane type of a compare (R123). -/
inductive CmpType where | s8 | s16 | s32 | z8 | z16 | z32 | f32 | f16 | bf16
  deriving DecidableEq, Repr

/-- The ten narrowing conversions that have a stochastic form (R121). -/
inductive SrKind where
  | bf16 | f16 | e4m3 | e5m2 | e2m1 | e4m3Bf16 | e5m2Bf16 | f16Bf16 | s32 | f32S32
  deriving DecidableEq, Repr

/-- A port of a router. `lightship` is the sixth port of the router of tile (8, 8) (R500). The port that
points off the die at an edge is the one that faces the link (R374, R376; log entry 11). -/
inductive Port where | north | east | south | west | loc | lightship
  deriving DecidableEq, Repr

/-- A place with output arbitration: the router of a tile, or the link end on an S-die (R374, R412). -/
inductive NetNode where
  | tile (r : TileId)
  | sdie (m : Fin 8)
  deriving DecidableEq, Repr

/-- The kind field of a message header (R252). -/
inductive PktKind where | eager | rts | cts | data | abort | nack | ack | stub | refuse
  deriving DecidableEq, Repr

/-- A packet: the header of R252, the payload, the tree prefix of R486, and the routing marks that travel
with it (escape bit, R380, and whether a port has cleared it, R480; fabric mode and detours, R482, R483; the port it leaves this
package by, R481). -/
structure Packet where
  kind : PktKind
  src : W32
  dst : W32
  tag : BitVec 24
  group : BitVec 12
  seq : W32
  len : Nat
  job : BitVec 16
  offset : Nat
  escape : Bool
  payload : List Byte
  tree : List (W64 × W64)
  ordered : Bool
  detours : Nat
  via : Option (Fin 10)
  unescaped : Bool := false
  deriving DecidableEq, Repr

/-- A frame at a fabric or host port: its packet (none where it only acknowledges), the frame counter of the key, whether its GCM
tag verifies, flow label and traffic class (R480, R488), its number in its delivery context, and what it acknowledges, by context
and number (R479; log entry 67). -/
structure Frame where
  pkt : Option Packet
  counter : Nat
  tagOk : Bool
  label : BitVec 20
  cls : Fin 3
  psn : Nat := 0
  acks : List (Nat × Nat) := []
  deriving DecidableEq, Repr

/-- The configuration the lightship writes to a port (R487). -/
structure PortConfig where
  peer : BitVec 16
  ordered : Bool
  deriving DecidableEq, Repr

/-- What bring-up of a port found (R479, R487, R488). -/
inductive SpdmOutcome where
  | established (peer : BitVec 16)
  | failed
  | refusedOption
  deriving DecidableEq, Repr

/-- The operands of a TILEMAP request (R446, R461): the unit is named by its kind and number. -/
inductive MapUnit where
  | tile (n : Nat) | server (n : Nat) | lens (n : Nat) | link (n : Nat) | router (n : Nat)
  deriving DecidableEq, Repr

/-- Read, set or clear entries of the tile map (R461). -/
inductive TileMapReq where
  | read (u : MapUnit)
  | set (us : List MapUnit)
  | clear (us : List MapUnit)
  deriving DecidableEq, Repr

/-- What an image offered to the lightship is (R490). -/
inductive ImageKind where | lightship | station | certificate
  deriving DecidableEq, Repr

/-- An image offered to the lightship: the bytes that its signature covers, the security version among them, and the signature
(R490). -/
structure FirmwareImage where
  kind : ImageKind
  bytes : List Byte
  signature : List Byte
  deriving DecidableEq, Repr

/-- The ONE inductive of instructions and whole steps: one constructor per row of spec/opcode_table.json. Rows that only the
outside names stand last. -/
inductive Instr where
  /-- ADD (R232): kd := (ka + kb) mod 2^64. -/
  | add (d : BitVec 5) (a : BitVec 5) (b : BitVec 5)
  /-- SUB (R232): kd := (ka - kb) mod 2^64. -/
  | sub (d : BitVec 5) (a : BitVec 5) (b : BitVec 5)
  /-- AND (R232): kd := ka AND kb. -/
  | and (d : BitVec 5) (a : BitVec 5) (b : BitVec 5)
  /-- OR (R232): kd := ka OR kb. -/
  | or (d : BitVec 5) (a : BitVec 5) (b : BitVec 5)
  /-- XOR (R232): kd := ka XOR kb. -/
  | xor (d : BitVec 5) (a : BitVec 5) (b : BitVec 5)
  /-- ANDN (R232): kd := ka AND NOT kb. -/
  | andn (d : BitVec 5) (a : BitVec 5) (b : BitVec 5)
  /-- SHL (R232): Left shift by kb; counts of 64 or more give 0. -/
  | shl (d : BitVec 5) (a : BitVec 5) (b : BitVec 5)
  /-- SHR (R232): Logical right shift by kb; counts of 64 or more give 0. -/
  | shr (d : BitVec 5) (a : BitVec 5) (b : BitVec 5)
  /-- SAR (R232): Arithmetic right shift by kb; counts of 64 or more fill with the sign. -/
  | sar (d : BitVec 5) (a : BitVec 5) (b : BitVec 5)
  /-- SLT (R232): kd := 1 if ka < kb signed, else 0. -/
  | slt (d : BitVec 5) (a : BitVec 5) (b : BitVec 5)
  /-- SLTU (R232): kd := 1 if ka < kb unsigned, else 0. -/
  | sltu (d : BitVec 5) (a : BitVec 5) (b : BitVec 5)
  /-- MIN (R232): kd := signed minimum of ka and kb. -/
  | min (d : BitVec 5) (a : BitVec 5) (b : BitVec 5)
  /-- MAX (R232): kd := signed maximum of ka and kb. -/
  | max (d : BitVec 5) (a : BitVec 5) (b : BitVec 5)
  /-- MINU (R232): kd := unsigned minimum of ka and kb. -/
  | minu (d : BitVec 5) (a : BitVec 5) (b : BitVec 5)
  /-- MAXU (R232): kd := unsigned maximum of ka and kb. -/
  | maxu (d : BitVec 5) (a : BitVec 5) (b : BitVec 5)
  /-- MUL (R232): kd := low 64 bits of ka times kb. -/
  | mul (d : BitVec 5) (a : BitVec 5) (b : BitVec 5)
  /-- MULH (R232): kd := high 64 bits of the signed product. -/
  | mulh (d : BitVec 5) (a : BitVec 5) (b : BitVec 5)
  /-- MULHU (R232): kd := high 64 bits of the unsigned product. -/
  | mulhu (d : BitVec 5) (a : BitVec 5) (b : BitVec 5)
  /-- DIV (R232): Signed division rounded toward zero; division by 0 gives -1. -/
  | div (d : BitVec 5) (a : BitVec 5) (b : BitVec 5)
  /-- DIVU (R232): Unsigned division; division by 0 gives all ones. -/
  | divu (d : BitVec 5) (a : BitVec 5) (b : BitVec 5)
  /-- REM (R232): Signed remainder; remainder by 0 gives ka. -/
  | rem (d : BitVec 5) (a : BitVec 5) (b : BitVec 5)
  /-- REMU (R232): Unsigned remainder; remainder by 0 gives ka. -/
  | remu (d : BitVec 5) (a : BitVec 5) (b : BitVec 5)
  /-- POPC (R232): kd := number of 1 bits of ka. -/
  | popc (d : BitVec 5) (a : BitVec 5)
  /-- CLZ (R232): kd := number of leading zero bits of ka. -/
  | clz (d : BitVec 5) (a : BitVec 5)
  /-- CTZ (R232): kd := number of trailing zero bits of ka. -/
  | ctz (d : BitVec 5) (a : BitVec 5)
  /-- ADDI (R231): kd := ka + sign-extended imm15. -/
  | addi (d : BitVec 5) (a : BitVec 5) (i : BitVec 15)
  /-- ANDI (R231): kd := ka AND zero-extended imm15. -/
  | andi (d : BitVec 5) (a : BitVec 5) (i : BitVec 15)
  /-- ORI (R231): kd := ka OR zero-extended imm15. -/
  | ori (d : BitVec 5) (a : BitVec 5) (i : BitVec 15)
  /-- XORI (R231): kd := ka XOR zero-extended imm15. -/
  | xori (d : BitVec 5) (a : BitVec 5) (i : BitVec 15)
  /-- SLTI (R231): kd := 1 if ka < imm signed, else 0. -/
  | slti (d : BitVec 5) (a : BitVec 5) (i : BitVec 15)
  /-- SLTIU (R231): kd := 1 if ka < the sign-extended imm, compared unsigned, else 0. -/
  | sltiu (d : BitVec 5) (a : BitVec 5) (i : BitVec 15)
  /-- SHLI (R231): Left shift of ka by imm15[5:0]. -/
  | shli (d : BitVec 5) (a : BitVec 5) (c : BitVec 6)
  /-- SHRI (R231): Logical right shift of ka by imm15[5:0]. -/
  | shri (d : BitVec 5) (a : BitVec 5) (c : BitVec 6)
  /-- SARI (R231): Arithmetic right shift of ka by imm15[5:0]. -/
  | sari (d : BitVec 5) (a : BitVec 5) (c : BitVec 6)
  /-- ADDHI (R231): kd := ka + imm * 2^15. -/
  | addhi (d : BitVec 5) (a : BitVec 5) (i : BitVec 15)
  /-- LB (R233): Loads a sign-extended byte. -/
  | lb (d : BitVec 5) (a : BitVec 5) (i : BitVec 15)
  /-- LBU (R233): Loads a zero-extended byte. -/
  | lbu (d : BitVec 5) (a : BitVec 5) (i : BitVec 15)
  /-- LH (R233): Loads a sign-extended 2-byte item. -/
  | lh (d : BitVec 5) (a : BitVec 5) (i : BitVec 15)
  /-- LHU (R233): Loads a zero-extended 2-byte item. -/
  | lhu (d : BitVec 5) (a : BitVec 5) (i : BitVec 15)
  /-- LW (R233): Loads a sign-extended 4-byte item. -/
  | lw (d : BitVec 5) (a : BitVec 5) (i : BitVec 15)
  /-- LWU (R233): Loads a zero-extended 4-byte item. -/
  | lwu (d : BitVec 5) (a : BitVec 5) (i : BitVec 15)
  /-- LD (R233): Loads 8 bytes, after the bound, alignment and CHECKMODE checks of R234. -/
  | ld (d : BitVec 5) (a : BitVec 5) (i : BitVec 15)
  /-- LD_SK (R233): Loads 8 bytes through the skew mapping. -/
  | ldSk (d : BitVec 5) (a : BitVec 5) (i : BitVec 15)
  /-- SB (R233): Stores the low byte of ks. -/
  | sb (s : BitVec 5) (a : BitVec 5) (i : BitVec 15)
  /-- SH (R233): Stores the low 2 bytes of ks. -/
  | sh (s : BitVec 5) (a : BitVec 5) (i : BitVec 15)
  /-- SW (R233): Stores the low 4 bytes of ks. -/
  | sw (s : BitVec 5) (a : BitVec 5) (i : BitVec 15)
  /-- SD (R233): Stores 8 bytes of ks. -/
  | sd (s : BitVec 5) (a : BitVec 5) (i : BitVec 15)
  /-- SD_SK (R233): Stores 8 bytes through the skew mapping. -/
  | sdSk (s : BitVec 5) (a : BitVec 5) (i : BitVec 15)
  /-- BEQ (R235): Branches if ka == kb. -/
  | beq (a : BitVec 5) (b : BitVec 5) (i : BitVec 15)
  /-- BNE (R235): Branches if ka != kb. -/
  | bne (a : BitVec 5) (b : BitVec 5) (i : BitVec 15)
  /-- BLT (R235): Branches if ka < kb, signed. -/
  | blt (a : BitVec 5) (b : BitVec 5) (i : BitVec 15)
  /-- BGE (R235): Branches if ka >= kb, signed. -/
  | bge (a : BitVec 5) (b : BitVec 5) (i : BitVec 15)
  /-- BLTU (R235): Branches if ka < kb, unsigned. -/
  | bltu (a : BitVec 5) (b : BitVec 5) (i : BitVec 15)
  /-- BGEU (R235): Branches if ka >= kb, unsigned. -/
  | bgeu (a : BitVec 5) (b : BitVec 5) (i : BitVec 15)
  /-- J (R235): Jumps by off25 instructions. -/
  | j (i : BitVec 25)
  /-- JAL (R235): Writes PC + 4 to k31 and jumps by off25 instructions. -/
  | jal (i : BitVec 25)
  /-- JALR (R235): Jumps to ka + imm and links into kd; a misaligned target traps. -/
  | jalr (d : BitVec 5) (a : BitVec 5) (i : BitVec 15)
  /-- CRR (R236): Reads a control register into kd, after the checks of R237. -/
  | crr (d : BitVec 5) (r : BitVec 12)
  /-- CRW (R236): Writes ks to a control register, after the checks of R237. -/
  | crw (s : BitVec 5) (r : BitVec 12)
  /-- CRS (R236): Sets the bits of ks in a control register, indivisibly. -/
  | crs (s : BitVec 5) (r : BitVec 12)
  /-- CRC (R236): Clears the bits of ks in a control register, indivisibly. -/
  | crc (s : BitVec 5) (r : BitVec 12)
  /-- WAITEV (R240): Waits until EVENTS AND ka is non-zero, then writes that value to kd. -/
  | waitev (d : BitVec 5) (a : BitVec 5)
  /-- TWAIT (R240): Waits until every token named in ka is set. -/
  | twait (a : BitVec 5)
  /-- TWAITA (R240): Waits until some token named in ka is set, then writes TOKLO AND ka to kd. -/
  | twaita (d : BitVec 5) (a : BitVec 5)
  /-- DONE (R241): Waits for all tokens and lamps, sends ka up the done tree and halts the keeper. -/
  | done (a : BitVec 5)
  /-- ANN (R391): Contributes an announcement in the current beacon window of a domain. -/
  | ann (d : BitVec 5) (a : BitVec 5) (b : BitVec 5) (x : BitVec 2)
  /-- ANN_L (R391): Listens to the announcements of the current window without contributing. -/
  | annL (d : BitVec 5) (b : BitVec 5) (x : BitVec 2)
  /-- VOTE_AND (R392): Joins a collective vote that combines the values by AND. -/
  | voteAnd (d : BitVec 5) (a : BitVec 5) (b : BitVec 5) (x : BitVec 2)
  /-- VOTE_OR (R392): Joins a collective vote that combines the values by OR. -/
  | voteOr (d : BitVec 5) (a : BitVec 5) (b : BitVec 5) (x : BitVec 2)
  /-- VOTE_MAX (R392): Joins a collective vote that takes the unsigned maximum. -/
  | voteMax (d : BitVec 5) (a : BitVec 5) (b : BitVec 5) (x : BitVec 2)
  /-- VOTE_MIN (R392): Joins a collective vote that takes the unsigned minimum. -/
  | voteMin (d : BitVec 5) (a : BitVec 5) (b : BitVec 5) (x : BitVec 2)
  /-- VOTE_MAXS (R392): Joins a collective vote that takes the signed maximum. -/
  | voteMaxs (d : BitVec 5) (a : BitVec 5) (b : BitVec 5) (x : BitVec 2)
  /-- VOTE_MINS (R392): Joins a collective vote that takes the signed minimum. -/
  | voteMins (d : BitVec 5) (a : BitVec 5) (b : BitVec 5) (x : BitVec 2)
  /-- SCAN (R393): Issues a collective exclusive prefix sum over up to 16 counters. -/
  | scan (t : BitVec 6) (k : BitVec 5) (m : BitVec 6) (n : BitVec 6) (x : BitVec 2)
  /-- BAR (R394): Arrives at the current barrier instance of a domain and waits for its release. -/
  | bar (d : BitVec 5) (a : BitVec 5) (x : BitVec 2)
  /-- BARX (R398): Requests a reset of a broken domain to a new epoch. -/
  | barx (d : BitVec 5) (a : BitVec 5) (x : BitVec 2)
  /-- CP_MOVE (R287): Issues a 2-D copy, with optional skew mapping on either side. -/
  | cpMove (t : BitVec 6) (k : BitVec 5) (m : BitVec 6) (n : BitVec 6) (y : BitVec 1) (x : BitVec 1)
  /-- CP_GATHER (R288): Issues a copy of indexed rows into dense rows. -/
  | cpGather (t : BitVec 6) (k : BitVec 5) (m : BitVec 6) (n : BitVec 6)
  /-- CP_SCATTER (R288): Issues a copy of dense rows to indexed rows. -/
  | cpScatter (t : BitVec 6) (k : BitVec 5) (m : BitVec 6) (n : BitVec 6)
  /-- CP_PLANE (R289): Issues a conversion of an operand from element layout to plane layout. -/
  | cpPlane (t : BitVec 6) (k : BitVec 5) (m : BitVec 6) (n : BitVec 6)
  /-- CP_UNPLANE (R289): Issues a conversion of an operand from plane layout to element layout. -/
  | cpUnplane (t : BitVec 6) (k : BitVec 5) (m : BitVec 6) (n : BitVec 6)
  /-- CP_PX8_ENC (R290): Issues the encoding of E4M3 blocks and their scales into a PX8 stream. -/
  | cpPx8Enc (t : BitVec 6) (k : BitVec 5) (m : BitVec 6) (n : BitVec 6)
  /-- CP_PX8_DEC (R290): Issues the decoding of a PX8 stream into E4M3 elements and scales. -/
  | cpPx8Dec (t : BitVec 6) (k : BitVec 5) (m : BitVec 6) (n : BitVec 6)
  /-- CP_PX8_BF16 (R290): Issues the decoding of a PX8 stream into scaled BF16 elements. -/
  | cpPx8Bf16 (t : BitVec 6) (k : BitVec 5) (m : BitVec 6) (n : BitVec 6)
  /-- CP_PX8_ENCBF (R290): Issues the encoding of BF16 elements into a PX8 stream with chosen scales. -/
  | cpPx8Encbf (t : BitVec 6) (k : BitVec 5) (m : BitVec 6) (n : BitVec 6)
  /-- CP_CVT (R291): Issues the conversion of n elements between format codes. -/
  | cpCvt (t : BitVec 6) (k : BitVec 5) (m : BitVec 6) (n : BitVec 6)
  /-- CP_ACC (R293): Issues a copy of accumulator words to SRAM with conversion, optionally clearing them. -/
  | cpAcc (t : BitVec 6) (k : BitVec 5) (m : BitVec 6) (n : BitVec 6) (c : BitVec 1)
  /-- CP_TOPK (R294): Issues a top-k selection of (value, index) pairs from accumulator rows, optionally clearing them. -/
  | cpTopk (t : BitVec 6) (k : BitVec 5) (m : BitVec 6) (n : BitVec 6) (c : BitVec 1)
  /-- CP_FILL (R295): Issues a fill of SRAM with a 16-byte pattern. -/
  | cpFill (t : BitVec 6) (k : BitVec 5) (m : BitVec 6) (n : BitVec 6)
  /-- TURN (R419): Queues a request to set a link's sector and completes once it is queued. -/
  | turn (d : BitVec 5) (a : BitVec 5)
  /-- TURN_W (R419): Queues a sector request and completes when it has been served. -/
  | turnW (d : BitVec 5) (a : BitVec 5)
  /-- TURNQ (R420): Returns a link's state word. -/
  | turnq (d : BitVec 5) (a : BitVec 5)
  /-- TURNQ_TX (R420): Returns a link's A-to-B flit counters. -/
  | turnqTx (d : BitVec 5) (a : BitVec 5)
  /-- TURNQ_RX (R420): Returns a link's B-to-A flit counters. -/
  | turnqRx (d : BitVec 5) (a : BitVec 5)
  /-- WINSET (R436): Writes a window entry into the job's staged table through the lightship. -/
  | winset (t : BitVec 6) (k : BitVec 5) (m : BitVec 6) (n : BitVec 6)
  /-- WINCOMMIT (R437): Asks the lightship to make the staged window table current, and waits for the new generation. -/
  | wincommit (d : BitVec 5)
  /-- WINQ (R439): Returns an entry of the current window table. -/
  | winq (d : BitVec 5) (a : BitVec 5)
  /-- WINQ_ST (R439): Returns an entry of the staged window table. -/
  | winqSt (d : BitVec 5) (a : BitVec 5)
  /-- WINQ_GEN (R439): Returns WINGEN. -/
  | winqGen (d : BitVec 5)
  /-- WINQ_ALLOT (R439): Returns the job's allotment in one stack. -/
  | winqAllot (d : BitVec 5) (a : BitVec 5)
  /-- FLASH (R298): Enters a flash of a block to a lamp mask into the flash queue. -/
  | flash (a : BitVec 5) (b : BitVec 5)
  /-- LSTART (R299): Starts STOPPED lamps at an address and resumes FAULTED ones. -/
  | lstart (a : BitVec 5) (b : BitVec 5)
  /-- LSTOP (R300): Stops the lamps of a mask at their next bundle boundary and cancels their waits. -/
  | lstop (a : BitVec 5)
  /-- LJOIN (R301): Waits until the lamps of a mask are stopped and their accesses have taken effect, then returns the faulted mask. -/
  | ljoin (d : BitVec 5) (a : BitVec 5)
  /-- LGROUP (R302): Sets the floor and ceiling of one lamp group. -/
  | lgroup (a : BitVec 5) (b : BitVec 5)
  /-- LSTATE (R303): Reads a lamp, copy-engine or pool state item. -/
  | lstate (d : BitVec 5) (a : BitVec 5)
  /-- LWRITE (R303): Writes a writable lamp or copy-engine state item. -/
  | lwrite (a : BitVec 5) (b : BitVec 5)
  /-- LSPILL_OUT (R305): Writes parked blocks to SRAM and returns them to the free pool. -/
  | lspillOut (t : BitVec 6) (k : BitVec 5) (m : BitVec 6) (n : BitVec 6)
  /-- LSPILL_IN (R305): Claims blocks for spilled pointers and fills them from SRAM. -/
  | lspillIn (t : BitVec 6) (k : BitVec 5) (m : BitVec 6) (n : BitVec 6)
  /-- SEND (R308): Issues a send, eager or rendezvous by EAGERMAX. -/
  | send (t : BitVec 6) (k : BitVec 5) (m : BitVec 6) (n : BitVec 6)
  /-- SSEND (R265): Issues a synchronous send that is always rendezvous. -/
  | ssend (t : BitVec 6) (k : BitVec 5) (m : BitVec 6) (n : BitVec 6)
  /-- SEND_TREE (R309): Issues a multicast send along a tree descriptor. -/
  | sendTree (t : BitVec 6) (k : BitVec 5) (m : BitVec 6) (n : BitVec 6)
  /-- RECV (R310): Issues a plain receive. -/
  | recv (t : BitVec 6) (k : BitVec 5) (m : BitVec 6) (n : BitVec 6)
  /-- RECV_ADD (R277): Issues a receive that adds arriving elements into its buffer. -/
  | recvAdd (t : BitVec 6) (k : BitVec 5) (m : BitVec 6) (n : BitVec 6)
  /-- RECV_PX8 (R278): Issues a receive that decodes a PX8 stream on arrival. -/
  | recvPx8 (t : BitVec 6) (k : BitVec 5) (m : BitVec 6) (n : BitVec 6)
  /-- PROBE (R312): Finds the first matching unexpected header and returns its source, tag and kind. -/
  | probe (d : BitVec 5) (a : BitVec 5) (b : BitVec 5)
  /-- PROBE_LEN (R312): Finds the first matching unexpected header and returns its length. -/
  | probeLen (d : BitVec 5) (a : BitVec 5) (b : BitVec 5)
  /-- CANCEL (R271): Cancels the command in a request slot where its stage allows it. -/
  | cancel (d : BitVec 5) (a : BitVec 5)
  /-- MWAIT (R312): Waits until a slot is not busy and returns status word 0. -/
  | mwait (d : BitVec 5) (a : BitVec 5)
  /-- MTEST (R312): Returns ka AND a mask of slots that are not busy. -/
  | mtest (d : BitVec 5) (a : BitVec 5) (b : BitVec 5)
  /-- MSTAT (R312): Returns one word of a slot's status record. -/
  | mstat (d : BitVec 5) (a : BitVec 5)
  /-- MQUIESCE (R313): Quiesces the message engine and waits for transfers in DATA, or ends quiescing. -/
  | mquiesce (a : BitVec 5)
  /-- LMM (R343): Issues a dense matrix product into SUM banks. -/
  | lmm (t : BitVec 6) (k : BitVec 5) (m : BitVec 6) (n : BitVec 6)
  /-- LMMS (R344): Issues a matrix product with an N-of-48 sparse B. -/
  | lmms (t : BitVec 6) (k : BitVec 5) (m : BitVec 6) (n : BitVec 6)
  /-- LRANK (R345): Issues a scoring product whose scores are inserted into ranked lists. -/
  | lrank (t : BitVec 6) (k : BitVec 5) (m : BitVec 6) (n : BitVec 6)
  /-- ACC_LOAD (R350): Issues a load of raw words from SRAM into accumulator rows. -/
  | accLoad (t : BitVec 6) (k : BitVec 5) (m : BitVec 6) (n : BitVec 6)
  /-- ACC_CLR (R350): Issues the clearing of accumulator rows in their own mode. -/
  | accClr (t : BitVec 6) (k : BitVec 5) (m : BitVec 6) (n : BitVec 6)
  /-- ACC_MERGE (R351): Issues a merge of ranked lists from SRAM into RANK rows. -/
  | accMerge (t : BitVec 6) (k : BitVec 5) (m : BitVec 6) (n : BitVec 6)
  /-- DRAIN (R352): Issues the dispatch of one drain handler per row of a band. -/
  | drain (t : BitVec 6) (k : BitVec 5) (m : BitVec 6) (n : BitVec 6)
  /-- ACC_FREE (R355): Issues the return of banks to the free state. -/
  | accFree (t : BitVec 6) (k : BitVec 5) (m : BitVec 6) (n : BitVec 6)
  /-- ACC_OWN (R355): Issues the setting of the owning lamp group of banks. -/
  | accOwn (t : BitVec 6) (k : BitVec 5) (m : BitVec 6) (n : BitVec 6)
  /-- ACC_ALLOC (R346): Searches for and reserves a run of free banks, and queues their allocation. -/
  | accAlloc (d : BitVec 5) (a : BitVec 5)
  /-- LQUERY_STATUS (R356): Returns the lens status word of a token. -/
  | lqueryStatus (d : BitVec 5) (a : BitVec 5)
  /-- LQUERY_FAULT (R356): Returns the lens fault word and clears its valid and more bits. -/
  | lqueryFault (d : BitVec 5) (a : BitVec 5)
  /-- LQUERY_BANK (R356): Returns the state of one accumulator bank. -/
  | lqueryBank (d : BitVec 5) (a : BitVec 5)
  /-- IA_ADD (R136): Wrapping lane add; also on ib. -/
  | iaAdd (u : IntUnit) (w : LaneW)
  /-- IA_SUB (R136): Wrapping lane subtract; also on ib. -/
  | iaSub (u : IntUnit) (w : LaneW)
  /-- ADDS_S (R136): Signed saturating lane add. -/
  | addsS (u : IntUnit) (w : LaneW)
  /-- ADDS_Z (R136): Unsigned saturating lane add. -/
  | addsZ (u : IntUnit) (w : LaneW)
  /-- SUBS_S (R136): Signed saturating lane subtract. -/
  | subsS (u : IntUnit) (w : LaneW)
  /-- SUBS_Z (R136): Unsigned saturating lane subtract. -/
  | subsZ (u : IntUnit) (w : LaneW)
  /-- MIN_S (R136): Signed lane minimum. -/
  | minS (u : IntUnit) (w : LaneW)
  /-- MIN_Z (R136): Unsigned lane minimum. -/
  | minZ (u : IntUnit) (w : LaneW)
  /-- MAX_S (R136): Signed lane maximum. -/
  | maxS (u : IntUnit) (w : LaneW)
  /-- MAX_Z (R136): Unsigned lane maximum. -/
  | maxZ (u : IntUnit) (w : LaneW)
  /-- IA_SHL (R137): Lane left shift by per-lane counts. -/
  | iaShl (u : IntUnit) (w : LaneW)
  /-- SHR_Z (R137): Lane logical right shift. -/
  | shrZ (u : IntUnit) (w : LaneW)
  /-- SHR_S (R137): Lane arithmetic right shift. -/
  | shrS (u : IntUnit) (w : LaneW)
  /-- AND_B128 (R138): 128-bit AND. -/
  | andB128 (u : IntUnit)
  /-- OR_B128 (R138): 128-bit OR. -/
  | orB128 (u : IntUnit)
  /-- XOR_B128 (R138): 128-bit XOR. -/
  | xorB128 (u : IntUnit)
  /-- ANDN_B128 (R138): 128-bit x AND NOT y. -/
  | andnB128 (u : IntUnit)
  /-- NOT_B128 (R138): 128-bit NOT of t. -/
  | notB128 (u : IntUnit)
  /-- MOV_B128 (R138): Copies t into the result port. -/
  | movB128 (u : IntUnit)
  /-- ADD_S64 (R136): Wrapping add in 64-bit lanes. -/
  | addS64 (u : IntUnit)
  /-- SUB_S64 (R136): Wrapping subtract in 64-bit lanes. -/
  | subS64 (u : IntUnit)
  /-- IB_MUL (R140): Low half of the lane product on ib. -/
  | ibMul (w : LaneW)
  /-- MULW_S (R141): Full signed widening lane product into .o and .o1. -/
  | mulwS (w : LaneW)
  /-- MULW_Z (R141): Full unsigned widening lane product into .o and .o1. -/
  | mulwZ (w : LaneW)
  /-- ZIPL (R146): Interleaves the low lanes of y and z. -/
  | zipl (w32 : Bool)
  /-- ZIPH (R146): Interleaves the high lanes of y and z. -/
  | ziph (w32 : Bool)
  /-- FMA (R158): Fused a*b + t with one rounding. -/
  | fma (ty : FmType)
  /-- FMS (R158): Fused a*b - t. -/
  | fms (ty : FmType)
  /-- FNMA (R158): Fused -(a*b) + t. -/
  | fnma (ty : FmType)
  /-- FNMS (R158): Fused -(a*b) - t. -/
  | fnms (ty : FmType)
  /-- FM_ADD (R158): Float a + t. -/
  | fmAdd (ty : FmType)
  /-- FM_SUB (R158): Float a - t. -/
  | fmSub (ty : FmType)
  /-- FM_MUL (R158): Float a * t. -/
  | fmMul (ty : FmType)
  /-- FM_MIN (R160): Float minimum with the NaN rules of R160. -/
  | fmMin (ty : FmType)
  /-- FM_MAX (R160): Float maximum with the NaN rules of R160. -/
  | fmMax (ty : FmType)
  /-- FM_ABS (R161): Clears the sign bit of each lane. -/
  | fmAbs (ty : FmType)
  /-- FM_NEG (R161): Inverts the sign bit of each lane. -/
  | fmNeg (ty : FmType)
  /-- CVT_SR (R169): Stochastically rounded form of narrowing conversions 0x00 to 0x09; steps the generator once per element. -/
  | cvtSr (k : SrKind)
  /-- CMP_EQ (R147): Lane compare for equality. -/
  | cmpEq (ty : CmpType)
  /-- CMP_NE (R147): Lane compare for inequality. -/
  | cmpNe (ty : CmpType)
  /-- CMP_LT (R147): Lane compare for less than. -/
  | cmpLt (ty : CmpType)
  /-- CMP_LE (R147): Lane compare for less or equal. -/
  | cmpLe (ty : CmpType)
  /-- LAMP_BUNDLE (R74): A lamp issues one bundle: it reads the sources, writes the ports, triggers the operations and writes the destinations. -/
  | lampBundle (r : TileId) (l : Fin 16)
  /-- FREEZE_RELEASE (R83): When the cause of a freeze clears, every held lamp and the copy sequencer resume together. -/
  | freezeRelease (r : TileId)
  /-- RESULT_DELIVERY (R76): An operation delivers its result and flags to its ports after its exposed latency; a store or atomic takes effect. -/
  | resultDelivery (r : TileId) (l : Fin 16)
  /-- FLASH_DELIVERY (R77): A queued flash is delivered to all its targets at the first clk at which they are all STOPPED. -/
  | flashDelivery (r : TileId)
  /-- LSTART_FIRST_BUNDLE (R299): The started lamps issue their first bundle together once the block read for LSTART has arrived. -/
  | lstartFirstBundle (r : TileId)
  /-- REQUEST_GRANT (R93): A waiting claim, take or pass is granted in queue order and its bundle completes. -/
  | requestGrant (r : TileId)
  /-- LINK_STALL_RELEASE (R81): A bundle stalled on an empty or full link FIFO completes when it can. -/
  | linkStallRelease (r : TileId) (l : Fin 16)
  /-- COPY_COMMAND_START (R283): The copy engine starts the head command of its queue once its input tokens are set. -/
  | copyCommandStart (r : TileId)
  /-- COPY_COMPLETE (R285): A copy command completes OK or FAULT, decrements its token and records any fault word. -/
  | copyComplete (r : TileId)
  /-- DUPLEX_ROLLBACK (R222): After in-flight copies complete, both tiles restore the logged state and resume after the CKPT. -/
  | duplexRollback (r : TileId)
  /-- SEND_START (R256): A send whose input tokens are set takes its sequence number and sends its EAGER or RTS header. -/
  | sendStart (r : TileId) (slot : Nat)
  /-- RECEIVE_POST (R258): A receive whose input tokens are set is matched against unexpected headers or joins the posted list. -/
  | receivePost (r : TileId) (slot : Nat)
  /-- EAGER (R263): An arriving eager header and data is matched, stored in the pool, turned into a stub or refused. -/
  | eager (e : BitVec 16) (n : Nat)
  /-- RTS (R264): An arriving RTS is matched and answered with a CTS, or stored as an unexpected header. -/
  | rts (e : BitVec 16) (n : Nat)
  /-- CTS (R264): An arriving CTS makes the sender transmit n bytes as DATA. -/
  | cts (e : BitVec 16) (n : Nat)
  /-- DATA (R264): Arriving DATA is written into the matched buffer, added, decoded or discarded; the last byte triggers the ACK. -/
  | data (e : BitVec 16) (n : Nat)
  /-- ACK (R263): An arriving ACK completes the send with the delivered length. -/
  | ack (e : BitVec 16) (n : Nat)
  /-- STUB (R268): An arriving STUB notice turns the eager send into a rendezvous send awaiting CTS. -/
  | stub (e : BitVec 16) (n : Nat)
  /-- NACK (R269): An arriving NACK schedules a retry of the refused header. -/
  | nack (e : BitVec 16) (n : Nat)
  /-- NACK_RETRY (R269): The retry delay expires and the refused header, then the later headers of the stream, are sent again. -/
  | nackRetry (e : BitVec 16) (n : Nat)
  /-- ABORT (R271): An arriving ABORT stops the send and completes it PEER_CANCELLED. -/
  | abort (e : BitVec 16) (n : Nat)
  /-- REFUSE (R250): An arriving REFUSE completes the send PEER_FAULT. -/
  | refuse (e : BitVec 16) (n : Nat)
  /-- ORDERED_COMPLETE (R260): A receive waiting in ORDERED completes once the earlier receives of its stream have completed. -/
  | orderedComplete (e : BitVec 16) (n : Nat)
  /-- STREAM_RETIRE (R256): The two engines retire the sequence state of a fully acknowledged stream, letting a waiting send open a stream. -/
  | streamRetire (e : BitVec 16) (peer : W32) (group : BitVec 12)
  /-- REPLAY_PAIR (R281): In replay mode the withheld wildcard receive and the logged header are paired once both are present. -/
  | replayPair (r : TileId)
  /-- ARBITER_GRANT (R321): For a free slot, the lens arbiter grants the head of a ready tile queue by weighted round robin. -/
  | arbiterGrant (c : LensId)
  /-- LOAD_COMPLETE (R319): A granted command's operand load ends, and the next granted slot starts loading. -/
  | loadComplete (c : LensId) (slot : Fin 2)
  /-- COMPUTE_START (R319): A loaded command begins computing after its load and the other slot's switch time. -/
  | computeStart (c : LensId) (slot : Fin 2)
  /-- BLOCK_STEP (R314): One block step of P clk completes and its groups are added to the accumulator. -/
  | blockStep (c : LensId)
  /-- BANK_COMMAND_ACCEPT (R323): The bank sequencer accepts a bank command at its queue head once its tokens are set. -/
  | bankCommandAccept (c : LensId) (pos : Fin 8)
  /-- ROW_OPERATION (R353): The bank sequencer performs one row operation: a clear, a load, a dispatch, a merge insertion or a bank change. -/
  | rowOperation (c : LensId)
  /-- CELL_FORWARD (R375): A router forwards a cell, choosing the route of its packet's head adaptively or in dimension order. -/
  | cellForward (n : NetNode) (p : Port)
  /-- CREDIT_RETURN (R374): A credit returns to the upstream router one clk after a cell leaves an input buffer. -/
  | creditReturn (n : NetNode) (p : Port)
  /-- PROMOTION (R379): A head's age counter reaches 256 and its packet is promoted to tier 2. -/
  | promotion (n : NetNode) (p : Port) (vc : Fin 4)
  /-- ESCAPE (R380): A head that waits more than 4,096 clk at an input moves to VC3. -/
  | escape (n : NetNode) (p : Port) (vc : Fin 4)
  /-- BEACON_WINDOW (R385): At the start of window w + 2 the results of window w are delivered: announcements, votes, scans and BARX. -/
  | beaconWindow (pkg : Bool)
  /-- BAR_COMMIT (R387): A barrier instance commits when all members have arrived and, under bsp, all pending fields read zero. -/
  | barCommit (i : Nat)
  /-- BAR_RELEASE (R394): A committed barrier releases 40 or 160 clk later, completing every member OK and advancing the epoch. -/
  | barRelease (i : Nat)
  /-- DOMAIN_BREAK (R396): A member's time-out expires before commit and the domain becomes broken. -/
  | domainBreak (i : Nat)
  /-- TIMEOUT_COMPLETE (R396): Waiting members complete TIMEOUT 40 or 160 clk after the break and their arrival masks are written. -/
  | timeoutComplete (i : Nat)
  /-- ROUTER_FAILURE (R399): An uncorrectable cell error or failed self-check stops a router and halts the die's jobs. -/
  | routerFailure (r : TileId)
  /-- FLIT (R410): A flit arrives at a link end and is accepted in sequence or discarded with a replay request. -/
  | flit (l : Fin 12) (toB : Bool) (ok : Bool)
  /-- REPLAY_REQUEST (R410): A replay request makes the sender resend from the named flit. -/
  | replayRequest (l : Fin 12) (toB : Bool)
  /-- LINK_ACK (R410): A cumulative acknowledgement frees flits from the replay buffer. -/
  | linkAck (l : Fin 12) (toB : Bool)
  /-- LINK_ACK_TIMER (R410): After 64 flits or 100 ns a link end sends a cumulative acknowledgement. -/
  | linkAckTimer (l : Fin 12) (toB : Bool)
  /-- LINK_CREDIT (R411): Returned link credits let the sender send more flits of a VC. -/
  | linkCredit (l : Fin 12) (toB : Bool) (vc : Fin 4)
  /-- TURN_SERVICE (R415): The turn controller serves a queue head after its dwell and any deferral, starting the dead time. -/
  | turnService (l : Fin 12)
  /-- DEAD_TIME_END (R416): After 48 ns of dead time the new sector takes effect and the turn is complete. -/
  | deadTimeEnd (l : Fin 12)
  /-- READ (R424): A server tile checks a READ request, reads and converts the rows and sends them. -/
  | read (v : Fin 32)
  /-- WRITE (R424): A server tile checks a WRITE request, posts a receive for its data, writes HBM and replies. -/
  | write (v : Fin 32)
  /-- GATHER (R424): A server tile reads indexed rows, converts them and sends them. -/
  | gather (v : Fin 32)
  /-- REDUCE (R424): A server tile adds received elements into HBM and replies. -/
  | reduce (v : Fin 32)
  /-- CONVERT (R424): A server tile converts rows from one window into another and replies. -/
  | convert (v : Fin 32)
  /-- SERVER_DISPATCH (R429): A server tile starts a queued matched request when one of its 256 request places frees. -/
  | serverDispatch (v : Fin 32)
  /-- WINSET_COMPLETE (R436): A WINSET completes once all 32 server copies of the staged table hold its entry. -/
  | winsetComplete (j : Fin 4)
  /-- WINDOW_COMMIT (R437): After earlier WINSETs finish and no old table is held, the lightship announces a commit. -/
  | windowCommit (j : Fin 4)
  /-- GENERATION_ADVANCE (R437): At window w + 2 every tile increments WINGEN and the servers switch tables. -/
  | generationAdvance (j : Fin 4)
  /-- OLD_TABLE_RELEASE (R438): When all requests of the old generation have completed, the old table is released and old_held clears. -/
  | oldTableRelease (j : Fin 4)
  /-- LOAD (R443): The lightship checks an image and partition, then places and boots the job. -/
  | load (host : W32) (tag : BitVec 24) (job : BitVec 16) (payload : List Byte)
  /-- RESUME (R450): The lightship restores a PARKED job on its own tiles. -/
  | resume (host : W32) (tag : BitVec 24) (job : BitVec 16)
  /-- OFFLINE (R462): The lightship drains a die, moves its windows and takes it offline, or refuses for lack of space. -/
  | offline (host : W32) (tag : BitVec 24) (job : BitVec 16) (die : BitVec 8)
  /-- IMAGE_FORWARD (R444): A tile whose image copy is complete forwards it to its boot-tree children. -/
  | imageForward (r : TileId)
  /-- KEEPER_START (R444): A tile starts its keeper at the entry address once its own image copy is complete. -/
  | keeperStart (r : TileId)
  /-- DONE_WORD (R445): A done-tree word arrives; once all are in, the parent forwards their combination or the lightship ends the job. -/
  | doneWord (parent child : BitVec 16)
  /-- DIE_FAULT (R463): A die taken offline by a fault halts its tiles, moves readable windows and marks the rest lost. -/
  | dieFault (d : Fin 4)
  /-- ILLEGAL (R226): The keeper reaches an instruction word with an unassigned op, fn or sub value or a non-zero unused field, and traps ILLEGAL with no other effect. -/
  | illegal (w : W32)
  /-- NOP (R238): Does nothing. -/
  | nop
  /-- TRET (R239): Returns from a trap at job or station level. -/
  | tret
  /-- CKPT (R222): In a duplex pair, writes the register checkpoint, empties the undo log and opens the checkpoint; elsewhere it has no effect. -/
  | ckpt
  /-- DHALT (R241): Performs a debug halt of the tile. -/
  | dhalt
  /-- LSWAP (R304): Exchanges the active and saved sets of lamp contexts and pointers over 64 clk. -/
  | lswap
  /-- POPC_B32 (R142): Population count of each 32-bit lane. -/
  | popcB32
  /-- PERM_B8 (R143): Byte permutation from a 32-byte table. -/
  | permB8
  /-- PERM_B32 (R144): Lane permutation from an 8-lane table. -/
  | permB32
  /-- BCAST_B32 (R145): Broadcasts one 32-bit lane to all lanes. -/
  | bcastB32
  /-- RDFLAG (R162): Reads the lamp's flags word. -/
  | rdflag
  /-- WRFLAG (R162): Writes the lamp's flags word. -/
  | wrflag
  /-- RDMODE (R162): Reads the lamp's arithmetic mode word. -/
  | rdmode
  /-- WRMODE (R162): Writes the lamp's arithmetic mode word. -/
  | wrmode
  /-- RCP (R163): Correctly rounded reciprocal. -/
  | rcp
  /-- SQRT (R163): Correctly rounded square root. -/
  | sqrt
  /-- RSQRT (R163): Correctly rounded reciprocal square root. -/
  | rsqrt
  /-- EXP2 (R163): Correctly rounded 2^x. -/
  | exp2
  /-- LOG2 (R163): Correctly rounded log2 x. -/
  | log2
  /-- CVT_BF16 (R167): Narrows FP32 to BF16. -/
  | cvtBf16
  /-- CVT_F16 (R167): Narrows FP32 to FP16. -/
  | cvtF16
  /-- CVT_E4M3 (R167): Narrows FP32 to E4M3. -/
  | cvtE4m3
  /-- CVT_E5M2 (R167): Narrows FP32 to E5M2. -/
  | cvtE5m2
  /-- CVT_E2M1 (R167): Narrows FP32 to E2M1. -/
  | cvtE2m1
  /-- CVT_E4M3_BF16 (R167): Narrows BF16 to E4M3. -/
  | cvtE4m3Bf16
  /-- CVT_E5M2_BF16 (R167): Narrows BF16 to E5M2. -/
  | cvtE5m2Bf16
  /-- CVT_F16_BF16 (R167): Narrows BF16 to FP16. -/
  | cvtF16Bf16
  /-- CVT_S32 (R167): Converts FP32 to s32. -/
  | cvtS32
  /-- CVT_F32_S32 (R167): Converts s32 to FP32, rounding. -/
  | cvtF32S32
  /-- CVT_S8_S32 (R167): Narrows s32 to s8. -/
  | cvtS8S32
  /-- CVT_S16_S32 (R167): Narrows s32 to s16. -/
  | cvtS16S32
  /-- CVT_S4_S8 (R167): Narrows s8 to s4. -/
  | cvtS4S8
  /-- CVT_Z8_S32 (R167): Narrows s32 to z8. -/
  | cvtZ8S32
  /-- CVT_F32_BF16 (R168): Widens BF16 to FP32. -/
  | cvtF32Bf16
  /-- CVT_F32_F16 (R168): Widens FP16 to FP32. -/
  | cvtF32F16
  /-- CVT_F32_E4M3 (R168): Widens E4M3 to FP32. -/
  | cvtF32E4m3
  /-- CVT_F32_E5M2 (R168): Widens E5M2 to FP32. -/
  | cvtF32E5m2
  /-- CVT_F32_E2M1 (R168): Widens E2M1 to FP32. -/
  | cvtF32E2m1
  /-- CVT_BF16_E4M3 (R168): Widens E4M3 to BF16. -/
  | cvtBf16E4m3
  /-- CVT_BF16_E5M2 (R168): Widens E5M2 to BF16. -/
  | cvtBf16E5m2
  /-- CVT_BF16_E2M1 (R168): Widens E2M1 to BF16. -/
  | cvtBf16E2m1
  /-- CVT_S32_S8 (R168): Sign-extends s8 to s32. -/
  | cvtS32S8
  /-- CVT_S32_Z8 (R168): Zero-extends z8 to s32. -/
  | cvtS32Z8
  /-- CVT_S32_S16 (R168): Sign-extends s16 to s32. -/
  | cvtS32S16
  /-- CVT_S8_S4 (R168): Sign-extends s4 to s8. -/
  | cvtS8S4
  /-- CVT_F32_MXI8 (R168): Converts MXINT8 elements to FP32. -/
  | cvtF32Mxi8
  /-- PX8_E4M3 (R171): Decodes one PX8 block into raw E4M3 bytes, scale, emax and length. -/
  | px8E4m3
  /-- PX8_BF16 (R172): Decodes one PX8 block into scaled BF16 elements. -/
  | px8Bf16
  /-- PLANE_PACK (R173): Transposes items into bit planes. -/
  | planePack
  /-- PLANE_UNPACK (R173): Transposes bit planes back into items. -/
  | planeUnpack
  /-- RDRNG (R170): Reads the generator state without stepping it. -/
  | rdrng
  /-- LS_LD (R176): Loads one SRAM granule. -/
  | lsLd
  /-- LS_LD_SK (R177): Loads one granule through the skew mapping. -/
  | lsLdSk
  /-- LS_ST (R176): Stores one SRAM granule. -/
  | lsSt
  /-- LS_ST_SK (R177): Stores one granule through the skew mapping. -/
  | lsStSk
  /-- LD_B32 (R176): Loads 4 bytes into lane 0. -/
  | ldB32
  /-- ST_B32 (R176): Stores 4 bytes from lane 0. -/
  | stB32
  /-- LDG_B32 (R176): Gathers four 4-byte items. -/
  | ldgB32
  /-- STG_B32 (R176): Scatters four 4-byte items. -/
  | stgB32
  /-- LDB (R179): Fills a whole workspace bank from 128 bytes of SRAM. -/
  | ldb
  /-- STB (R179): Stores a whole workspace bank to 128 bytes of SRAM. -/
  | stb
  /-- LDACC (R181): Reads a 4-word segment of an accumulator row. -/
  | ldacc
  /-- LDACC_COL (R181): Reads one word of each of 4 accumulator rows. -/
  | ldaccCol
  /-- STACC (R181): Writes a 4-word segment of an accumulator row. -/
  | stacc
  /-- ATOM_ADD_F32 (R184): Indivisible FP32 add into a granule, returning its old value. -/
  | atomAddF32
  /-- ATOM_ADD_BF16 (R184): Indivisible BF16 add into a granule, returning its old value. -/
  | atomAddBf16
  /-- ATOM_ADD_S32 (R184): Indivisible wrapping s32 add into a granule, returning its old value. -/
  | atomAddS32
  /-- ANY_B32 (R149): All ones if some 32-bit lane is non-zero. -/
  | anyB32
  /-- ALL_B32 (R149): All ones if every 32-bit lane is non-zero. -/
  | allB32
  /-- SEL_B128 (R150): Bitwise select by mask. -/
  | selB128
  /-- PAND (R151): Predicate AND. -/
  | pand
  /-- POR (R151): Predicate OR. -/
  | por
  /-- PXOR (R151): Predicate XOR. -/
  | pxor
  /-- PNOT (R151): Predicate NOT. -/
  | pnot
  /-- MASK_B32 (R152): Builds a 32-bit lane mask from a bit string. -/
  | maskB32
  /-- MASK_B16 (R152): Builds a 16-bit lane mask from a bit string. -/
  | maskB16
  /-- MASK_B8 (R152): Builds an 8-bit lane mask from a bit string. -/
  | maskB8
  /-- FETCH (R188): Reads a block into the fetched-block register. -/
  | fetch
  /-- NEXT (R188): Fetches the block that follows the current one. -/
  | next
  /-- JUMP (R189): Ends the current block after its bundle. -/
  | jump
  /-- STOP (R190): Stops the lamp after its bundle. -/
  | stop
  /-- REP (R85): Repeats the next len bundles n times with register stride. -/
  | rep
  /-- FENCE (R192): Holds the next bundle until the lamp's earlier accesses have taken effect. -/
  | fence
  /-- GIVE (R89): Unmaps a bank and returns its block to the free pool. -/
  | give
  /-- PASS (R89): Unmaps a bank and appends its block to a group's handoff queue, or waits for room. -/
  | pass
  /-- CLAIM (R89): Maps a free block into a bank, or waits under R91. -/
  | claim
  /-- TAKE (R89): Maps the head of a handoff queue into a bank, or waits. -/
  | take
  /-- LINK_NEXT (R195): Sends a value to the next lamp's link FIFO. -/
  | linkNext
  /-- LINK_PREV (R195): Sends a value to the previous lamp's link FIFO. -/
  | linkPrev
  /-- LINK_IDX (R195): Sends a value to the lamp named by the link index register. -/
  | linkIdx
  /-- SIGNAL (R197): Latches the signal word and sets the lamp's signal bit in EVENTS. -/
  | signal
  /-- LINKREG (R196): Sets the link index register. -/
  | linkreg
  /-- KEEPER_WAIT_COMPLETE (R240): A waiting keeper instruction completes in the first clk in which its condition holds. -/
  | keeperWaitComplete
  /-- TAKE_TRAP (R219): The keeper takes a pending asynchronous trap at an instruction boundary, to job or station level. -/
  | takeTrap
  /-- DUTY_STEP (R466): Each 1 ms the lightship lowers or raises the lens duty by 1/16 and sends notice 6. -/
  | dutyStep
  /-- PACKAGE_RESET (R487): A package reset erases port keys and returns the ports to UNLOCKED. -/
  | packageReset
  /-- FABRIC_ADAPTIVE (R484): Once every lightship has installed the new port set, ADAPTIVE mode is set again. -/
  | fabricAdaptive
  /-- FETCH_SRAM_BOUND (R198): The keeper fetches its next instruction from an address outside its SRAM bounds and traps SRAM_BOUND at that instruction. -/
  | fetchSramBound
  /-- BYPASS (R465): IEEE 1149.1 bypass instruction for board test. -/
  | bypass (tdi : List Bool)
  /-- SAMPLE_PRELOAD (R465): IEEE 1149.1 sample and preload of the boundary. -/
  | samplePreload (tdi : List Bool)
  /-- EXTEST (R465): IEEE 1149.1 external test of the signal balls. -/
  | extest (tdi : List Bool)
  /-- IDCODE (R465): IEEE 1149.1 identification code read. -/
  | idcode (tdi : List Bool)
  /-- TIMER (R202): While ALARM is enabled, EVENTS.timer is set in each clk in which CYCLE reaches the compare value. -/
  | timer (r : TileId)
  /-- PEER_LEAVE (R276): A peer leaves the job, and every transfer in progress with it completes PEER_FAULT. -/
  | peerLeave (e : BitVec 16) (peer : W32)
  /-- LINK_TRAINING (R414): A link trains, setting sector 8, credits and counters. -/
  | linkTraining (l : Fin 12) (ok : Bool)
  /-- PREEMPT (R446): The lightship parks a whole job, raising PREEMPT on every tile. -/
  | preempt (host : W32) (tag : BitVec 24) (job : BitVec 16)
  /-- KILL (R446): The lightship halts every tile of a job, sends 0x8003 words and frees its resources. -/
  | kill (host : W32) (tag : BitVec 24) (job : BitVec 16)
  /-- STATUS (R447): The lightship replies with a job's state, combined done word, tile count and lens duty. -/
  | status (host : W32) (tag : BitVec 24) (job : BitVec 16)
  /-- DREAD (R459): The lightship reads words through the debug window. -/
  | dread (host : W32) (tag : BitVec 24) (job : BitVec 16) (addr : W64) (count : Nat)
  /-- DWRITE (R459): The lightship writes words through the debug window on a halted or parked tile. -/
  | dwrite (host : W32) (tag : BitVec 24) (job : BitVec 16) (addr : W64) (words : List W64)
  /-- DHALT_REQUEST (R458): The lightship debug-halts one tile or the whole job. -/
  | dhaltRequest (host : W32) (tag : BitVec 24) (job : BitVec 16) (unit : BitVec 16)
  /-- DRESUME (R458): The lightship restarts halted units in one clk, and the keeper takes the DEBUG trap. -/
  | dresume (host : W32) (tag : BitVec 24) (job : BitVec 16) (unit : BitVec 16)
  /-- TILEMAP (R461): The lightship reads, sets or clears tile map entries. -/
  | tilemap (host : W32) (tag : BitVec 24) (job : BitVec 16) (req : TileMapReq)
  /-- ONLINE (R462): The lightship returns a die with no excluded router to ONLINE. -/
  | online (host : W32) (tag : BitVec 24) (job : BitVec 16) (die : BitVec 8)
  /-- ENGSWAP (R454): A station write of 1 exchanges the active and parked engine contexts in one clk. -/
  | engswap (v : W64)
  /-- LSCMD (R453): A write of LSCMD passes a lightship command, and a station write of 0 acknowledges it. -/
  | lscmd (v : W64)
  /-- POWER_SAMPLE (R466): The lightship samples package power every 10 µs. -/
  | powerSample (milliwatt : Nat)
  /-- THERMAL_LIMIT (R467): A die reaching 105 °C drops the duty to 4/16; at 115 °C every tile halts. -/
  | thermalLimit (d : Fin 4) (celsius : Nat)
  /-- FRAME (R480): A fabric or host port receives a frame, checks its GCM tag, strips tree entries and routes the packet on. -/
  | frame (port : Fin 10) (f : Frame)
  /-- PORT_CONFIGURATION (R487): The lightship writes a port's configuration, accepted only in UNLOCKED. -/
  | portConfiguration (port : Fin 10) (c : PortConfig)
  /-- SPDM_SESSION (R488): A trained port runs SPDM 1.3 and becomes LOCKED, or ERROR on failure. -/
  | spdmSession (port : Fin 10) (o : SpdmOutcome)
  /-- PORT_RUN (R487): The lightship's RUN command lets a LOCKED port carry job traffic. -/
  | portRun (port : Fin 10)
  /-- PORT_UNLOCK (R487): The lightship's UNLOCK command erases keys and returns the port to UNLOCKED. -/
  | portUnlock (port : Fin 10)
  /-- PORT_LINK_LOSS (R487): A port in RUN loses its link, erases its keys and enters ERROR. -/
  | portLinkLoss (port : Fin 10)
  /-- FIRMWARE_IMAGE (R490): The lightship checks the signature and security version of a firmware image and accepts or refuses it. -/
  | firmwareImage (img : FirmwareImage)
  /-- ALARM (R202): A write of ALARM arms or disarms the keeper's timer. -/
  | alarm (v : W64)
  /-- EVENTS (R217): A write of 1 to an EVENTS bit clears it. -/
  | events (v : W64)
  /-- ECCSTAT (R224): A write of 1 to an ECCSTAT error bit clears it. -/
  | eccstat (v : W64)
  /-- CHECKMODE (R215): A write of CHECKMODE turns hazard checking on or off and sets the breach count. -/
  | checkmode (v : W64)
  /-- SRAMLIM (R203): A write of SRAMLIM sets the job SRAM limit, refused if too high or below the pool. -/
  | sramlim (v : W64)
  /-- UXPOOL (R207): A write of UXPOOL moves the unexpected pool, refused while it holds payloads. -/
  | uxpool (v : W64)
  /-- MATCHLOG (R279): A write of MATCHLOG sets the match-log ring and its off, record or replay mode. -/
  | matchlog (v : W64)
  /-- EAGERMAX (R262): A write of EAGERMAX sets the eager limit within 1 to 32 units. -/
  | eagermax (v : W64)
  /-- DOMA (R384): A write of DOMA to DOMD sets a domain, discarding its collective state, refused while an operation is outstanding. -/
  | doma (d : Fin 4) (v : W64)
  /-- CONTROL_REGISTER_WRITE (R201): A write of a control register with no row of its own is checked against its rules and stored. -/
  | controlRegisterWrite (n : BitVec 12) (v : W64)
  /-- PACKET_DELIVERY_RESEND (R479): The Packet Delivery Sublayer of a port sends again a frame that was lost or discarded for a failed tag. -/
  | packetDeliveryResend (port : Fin 10)
  /-- DRAIN_DISPATCH (R96): The lens selects an eligible lamp for the next row, claims two banks for it and fills them with the row. -/
  | drainDispatch (c : LensId)
  /-- PREEMPT_PHASE_TIMEOUT (R455): If no BSP phase boundary comes within 10 ms of PREEMPT, the trap is taken at the next instruction boundary. -/
  | preemptPhaseTimeout (r : TileId)
  /-- KEY_UPDATE (R488): After 2^32 frames on a key, KEY_UPDATE is requested. -/
  | keyUpdate (port : Fin 10)
  deriving DecidableEq, Repr

end Sys2Proof
end

