-- ==== Sys2Proof/WellFormed.lean ====
section
/-! DEFINITION. Which terms of `Instr` stand for something the device has: the checks that the operand
types leave open. A term that fails one is no instruction of the device. -/

namespace Sys2Proof

/-- A descriptor base leaves room for four registers (R242). -/
def kbaseOk (k : BitVec 5) : Bool := k.toNat ≤ 28

/-- The local value of a rank that holds a message engine: a compute tile, a server tile or the
lightship (R248). -/
def unitOk (e : BitVec 16) : Bool :=
  e.toNat < 0x400 || (0x400 ≤ e.toNat && e.toNat < 0x420) || e.toNat == 0x800

/-- A packet's payload stays within R371, and an EAGER or DATA packet alone carries one. -/
def Packet.ok (p : Packet) : Bool :=
  p.payload.length ≤ 4096 && (p.kind = .eager || p.kind = .data || p.payload.isEmpty)

/-- A vote carries one of the registers DOMA to DOMD by type; the shape of an `Instr` is well formed when
its descriptor base, unit and payload are (R242, R248, R371), and a control-register write that has a row of
its own does not stand as CONTROL_REGISTER_WRITE. -/
def Instr.wf : Instr → Bool
  | .scan _ k _ _ _ => kbaseOk k
  | .cpMove _ k _ _ _ _ => kbaseOk k
  | .cpGather _ k _ _ => kbaseOk k
  | .cpScatter _ k _ _ => kbaseOk k
  | .cpPlane _ k _ _ => kbaseOk k
  | .cpUnplane _ k _ _ => kbaseOk k
  | .cpPx8Enc _ k _ _ => kbaseOk k
  | .cpPx8Dec _ k _ _ => kbaseOk k
  | .cpPx8Bf16 _ k _ _ => kbaseOk k
  | .cpPx8Encbf _ k _ _ => kbaseOk k
  | .cpCvt _ k _ _ => kbaseOk k
  | .cpAcc _ k _ _ _ => kbaseOk k
  | .cpTopk _ k _ _ _ => kbaseOk k
  | .cpFill _ k _ _ => kbaseOk k
  | .winset _ k _ _ => kbaseOk k
  | .lspillOut _ k _ _ => kbaseOk k
  | .lspillIn _ k _ _ => kbaseOk k
  | .send _ k _ _ => kbaseOk k
  | .ssend _ k _ _ => kbaseOk k
  | .sendTree _ k _ _ => kbaseOk k
  | .recv _ k _ _ => kbaseOk k
  | .recvAdd _ k _ _ => kbaseOk k
  | .recvPx8 _ k _ _ => kbaseOk k
  | .lmm _ k _ _ => kbaseOk k
  | .lmms _ k _ _ => kbaseOk k
  | .lrank _ k _ _ => kbaseOk k
  | .accLoad _ k _ _ => kbaseOk k
  | .accClr _ k _ _ => kbaseOk k
  | .accMerge _ k _ _ => kbaseOk k
  | .drain _ k _ _ => kbaseOk k
  | .accFree _ k _ _ => kbaseOk k
  | .accOwn _ k _ _ => kbaseOk k
  | .eager e _ => unitOk e
  | .rts e _ => unitOk e
  | .cts e _ => unitOk e
  | .data e _ => unitOk e
  | .ack e _ => unitOk e
  | .stub e _ => unitOk e
  | .nack e _ => unitOk e
  | .abort e _ => unitOk e
  | .refuse e _ => unitOk e
  | .nackRetry e _ => unitOk e
  | .orderedComplete e _ => unitOk e
  | .streamRetire e _ _ => unitOk e
  | .peerLeave e _ => unitOk e
  | .frame _ f => f.pkt.all Packet.ok
  | .offline _ _ _ die => die.toNat < 4
  | .online _ _ _ die => die.toNat < 4
  | .controlRegisterWrite n _ =>
      !([0x005, 0x00C, 0x00E, 0x010, 0x013, 0x014, 0x020, 0x021, 0x028, 0x029, 0x02A, 0x02B, 0x100,
        0x101].contains n.toNat)
  | _ => true

end Sys2Proof
end

