-- ==== Sys2Proof/Decode.lean ====
section
/-! DEFINITION. Decoding and encoding: keeper words (R225 to R228), the slots of a lamp bundle (R106, R107) and
the trigger ports of the lamp operations (R117 to R124). The rows that are whole steps have no encoding. -/

namespace Sys2Proof

/-- Why a word is no keeper instruction (R226): an op that R228 does not list, an fn or sub value that its op does
not list, or a non-zero bit in an unused field. -/
inductive DecodeError where
  | unassignedOp
  | unassignedSub
  | unusedField
  deriving DecidableEq, Repr

/-- The keeper instruction of a word, rejected by name: the major opcode selects the format (R225, R227), and a
word with an unassigned op, fn or sub value or a non-zero unused field is illegal (R226, R228). -/
def decodeWord (w : W32) : Except DecodeError Instr :=
  match (w.extractLsb' 25 7).toNat with
  | 0x01 =>
    match (w.extractLsb' 0 10).toNat with
    | 0x000 => .ok (.add (w.extractLsb' 20 5) (w.extractLsb' 15 5) (w.extractLsb' 10 5))
    | 0x001 => .ok (.sub (w.extractLsb' 20 5) (w.extractLsb' 15 5) (w.extractLsb' 10 5))
    | 0x002 => .ok (.and (w.extractLsb' 20 5) (w.extractLsb' 15 5) (w.extractLsb' 10 5))
    | 0x003 => .ok (.or (w.extractLsb' 20 5) (w.extractLsb' 15 5) (w.extractLsb' 10 5))
    | 0x004 => .ok (.xor (w.extractLsb' 20 5) (w.extractLsb' 15 5) (w.extractLsb' 10 5))
    | 0x005 => .ok (.andn (w.extractLsb' 20 5) (w.extractLsb' 15 5) (w.extractLsb' 10 5))
    | 0x006 => .ok (.shl (w.extractLsb' 20 5) (w.extractLsb' 15 5) (w.extractLsb' 10 5))
    | 0x007 => .ok (.shr (w.extractLsb' 20 5) (w.extractLsb' 15 5) (w.extractLsb' 10 5))
    | 0x008 => .ok (.sar (w.extractLsb' 20 5) (w.extractLsb' 15 5) (w.extractLsb' 10 5))
    | 0x009 => .ok (.slt (w.extractLsb' 20 5) (w.extractLsb' 15 5) (w.extractLsb' 10 5))
    | 0x00A => .ok (.sltu (w.extractLsb' 20 5) (w.extractLsb' 15 5) (w.extractLsb' 10 5))
    | 0x00B => .ok (.min (w.extractLsb' 20 5) (w.extractLsb' 15 5) (w.extractLsb' 10 5))
    | 0x00C => .ok (.max (w.extractLsb' 20 5) (w.extractLsb' 15 5) (w.extractLsb' 10 5))
    | 0x00D => .ok (.minu (w.extractLsb' 20 5) (w.extractLsb' 15 5) (w.extractLsb' 10 5))
    | 0x00E => .ok (.maxu (w.extractLsb' 20 5) (w.extractLsb' 15 5) (w.extractLsb' 10 5))
    | 0x00F => .ok (.mul (w.extractLsb' 20 5) (w.extractLsb' 15 5) (w.extractLsb' 10 5))
    | 0x010 => .ok (.mulh (w.extractLsb' 20 5) (w.extractLsb' 15 5) (w.extractLsb' 10 5))
    | 0x011 => .ok (.mulhu (w.extractLsb' 20 5) (w.extractLsb' 15 5) (w.extractLsb' 10 5))
    | 0x012 => .ok (.div (w.extractLsb' 20 5) (w.extractLsb' 15 5) (w.extractLsb' 10 5))
    | 0x013 => .ok (.divu (w.extractLsb' 20 5) (w.extractLsb' 15 5) (w.extractLsb' 10 5))
    | 0x014 => .ok (.rem (w.extractLsb' 20 5) (w.extractLsb' 15 5) (w.extractLsb' 10 5))
    | 0x015 => .ok (.remu (w.extractLsb' 20 5) (w.extractLsb' 15 5) (w.extractLsb' 10 5))
    | 0x016 => if w.extractLsb' 10 5 = 0#5 then .ok (.popc (w.extractLsb' 20 5) (w.extractLsb' 15 5)) else .error .unusedField
    | 0x017 => if w.extractLsb' 10 5 = 0#5 then .ok (.clz (w.extractLsb' 20 5) (w.extractLsb' 15 5)) else .error .unusedField
    | 0x018 => if w.extractLsb' 10 5 = 0#5 then .ok (.ctz (w.extractLsb' 20 5) (w.extractLsb' 15 5)) else .error .unusedField
    | _ => .error .unassignedSub
  | 0x02 => .ok (.addi (w.extractLsb' 20 5) (w.extractLsb' 15 5) (w.extractLsb' 0 15))
  | 0x03 => .ok (.andi (w.extractLsb' 20 5) (w.extractLsb' 15 5) (w.extractLsb' 0 15))
  | 0x04 => .ok (.ori (w.extractLsb' 20 5) (w.extractLsb' 15 5) (w.extractLsb' 0 15))
  | 0x05 => .ok (.xori (w.extractLsb' 20 5) (w.extractLsb' 15 5) (w.extractLsb' 0 15))
  | 0x06 => .ok (.slti (w.extractLsb' 20 5) (w.extractLsb' 15 5) (w.extractLsb' 0 15))
  | 0x07 => .ok (.sltiu (w.extractLsb' 20 5) (w.extractLsb' 15 5) (w.extractLsb' 0 15))
  | 0x08 =>
    if w.extractLsb' 6 9 = 0#9 then .ok (.shli (w.extractLsb' 20 5) (w.extractLsb' 15 5) (w.extractLsb' 0 6))
    else .error .unassignedSub
  | 0x09 =>
    if w.extractLsb' 6 9 = 0#9 then .ok (.shri (w.extractLsb' 20 5) (w.extractLsb' 15 5) (w.extractLsb' 0 6))
    else .error .unassignedSub
  | 0x0A =>
    if w.extractLsb' 6 9 = 0#9 then .ok (.sari (w.extractLsb' 20 5) (w.extractLsb' 15 5) (w.extractLsb' 0 6))
    else .error .unassignedSub
  | 0x0B => .ok (.addhi (w.extractLsb' 20 5) (w.extractLsb' 15 5) (w.extractLsb' 0 15))
  | 0x10 => .ok (.lb (w.extractLsb' 20 5) (w.extractLsb' 15 5) (w.extractLsb' 0 15))
  | 0x11 => .ok (.lbu (w.extractLsb' 20 5) (w.extractLsb' 15 5) (w.extractLsb' 0 15))
  | 0x12 => .ok (.lh (w.extractLsb' 20 5) (w.extractLsb' 15 5) (w.extractLsb' 0 15))
  | 0x13 => .ok (.lhu (w.extractLsb' 20 5) (w.extractLsb' 15 5) (w.extractLsb' 0 15))
  | 0x14 => .ok (.lw (w.extractLsb' 20 5) (w.extractLsb' 15 5) (w.extractLsb' 0 15))
  | 0x15 => .ok (.lwu (w.extractLsb' 20 5) (w.extractLsb' 15 5) (w.extractLsb' 0 15))
  | 0x16 => .ok (.ld (w.extractLsb' 20 5) (w.extractLsb' 15 5) (w.extractLsb' 0 15))
  | 0x17 => .ok (.ldSk (w.extractLsb' 20 5) (w.extractLsb' 15 5) (w.extractLsb' 0 15))
  | 0x18 => .ok (.sb (w.extractLsb' 20 5) (w.extractLsb' 15 5) (w.extractLsb' 0 15))
  | 0x19 => .ok (.sh (w.extractLsb' 20 5) (w.extractLsb' 15 5) (w.extractLsb' 0 15))
  | 0x1A => .ok (.sw (w.extractLsb' 20 5) (w.extractLsb' 15 5) (w.extractLsb' 0 15))
  | 0x1B => .ok (.sd (w.extractLsb' 20 5) (w.extractLsb' 15 5) (w.extractLsb' 0 15))
  | 0x1C => .ok (.sdSk (w.extractLsb' 20 5) (w.extractLsb' 15 5) (w.extractLsb' 0 15))
  | 0x20 => .ok (.beq (w.extractLsb' 20 5) (w.extractLsb' 15 5) (w.extractLsb' 0 15))
  | 0x21 => .ok (.bne (w.extractLsb' 20 5) (w.extractLsb' 15 5) (w.extractLsb' 0 15))
  | 0x22 => .ok (.blt (w.extractLsb' 20 5) (w.extractLsb' 15 5) (w.extractLsb' 0 15))
  | 0x23 => .ok (.bge (w.extractLsb' 20 5) (w.extractLsb' 15 5) (w.extractLsb' 0 15))
  | 0x24 => .ok (.bltu (w.extractLsb' 20 5) (w.extractLsb' 15 5) (w.extractLsb' 0 15))
  | 0x25 => .ok (.bgeu (w.extractLsb' 20 5) (w.extractLsb' 15 5) (w.extractLsb' 0 15))
  | 0x26 => .ok (.j (w.extractLsb' 0 25))
  | 0x27 => .ok (.jal (w.extractLsb' 0 25))
  | 0x28 => .ok (.jalr (w.extractLsb' 20 5) (w.extractLsb' 15 5) (w.extractLsb' 0 15))
  | 0x30 =>
    if w.extractLsb' 0 8 = 0#8 then .ok (.crr (w.extractLsb' 20 5) (w.extractLsb' 8 12))
    else if w.extractLsb' 0 8 = 1#8 then .ok (.crw (w.extractLsb' 20 5) (w.extractLsb' 8 12))
    else if w.extractLsb' 0 8 = 2#8 then .ok (.crs (w.extractLsb' 20 5) (w.extractLsb' 8 12))
    else if w.extractLsb' 0 8 = 3#8 then .ok (.crc (w.extractLsb' 20 5) (w.extractLsb' 8 12))
    else .error .unassignedSub
  | 0x31 =>
    if w.extractLsb' 0 25 = 0#25 then .ok (.nop)
    else if w.extractLsb' 0 25 = 1#25 then .ok (.tret)
    else if w.extractLsb' 0 25 = 2#25 then .ok (.ckpt)
    else if w.extractLsb' 0 25 = 3#25 then .ok (.dhalt)
    else if w.extractLsb' 0 15 = 4#15 then .ok (.waitev (w.extractLsb' 20 5) (w.extractLsb' 15 5))
    else if w.extractLsb' 20 5 = 0#5 ∧ w.extractLsb' 0 15 = 5#15 then .ok (.twait (w.extractLsb' 15 5))
    else if w.extractLsb' 0 15 = 6#15 then .ok (.twaita (w.extractLsb' 20 5) (w.extractLsb' 15 5))
    else if w.extractLsb' 20 5 = 0#5 ∧ w.extractLsb' 0 15 = 7#15 then .ok (.done (w.extractLsb' 15 5))
    else .error .unassignedSub
  | 0x38 =>
    if w.extractLsb' 2 8 = 0#8 then .ok (.ann (w.extractLsb' 20 5) (w.extractLsb' 15 5) (w.extractLsb' 10 5) (w.extractLsb' 0 2))
    else if w.extractLsb' 15 5 = 0#5 ∧ w.extractLsb' 2 8 = 1#8 then .ok (.annL (w.extractLsb' 20 5) (w.extractLsb' 10 5) (w.extractLsb' 0 2))
    else .error .unassignedSub
  | 0x39 =>
    if w.extractLsb' 2 8 = 0#8 then .ok (.voteAnd (w.extractLsb' 20 5) (w.extractLsb' 15 5) (w.extractLsb' 10 5) (w.extractLsb' 0 2))
    else if w.extractLsb' 2 8 = 1#8 then .ok (.voteOr (w.extractLsb' 20 5) (w.extractLsb' 15 5) (w.extractLsb' 10 5) (w.extractLsb' 0 2))
    else if w.extractLsb' 2 8 = 2#8 then .ok (.voteMax (w.extractLsb' 20 5) (w.extractLsb' 15 5) (w.extractLsb' 10 5) (w.extractLsb' 0 2))
    else if w.extractLsb' 2 8 = 3#8 then .ok (.voteMin (w.extractLsb' 20 5) (w.extractLsb' 15 5) (w.extractLsb' 10 5) (w.extractLsb' 0 2))
    else if w.extractLsb' 2 8 = 4#8 then .ok (.voteMaxs (w.extractLsb' 20 5) (w.extractLsb' 15 5) (w.extractLsb' 10 5) (w.extractLsb' 0 2))
    else if w.extractLsb' 2 8 = 5#8 then .ok (.voteMins (w.extractLsb' 20 5) (w.extractLsb' 15 5) (w.extractLsb' 10 5) (w.extractLsb' 0 2))
    else .error .unassignedSub
  | 0x3A => .ok (.scan (w.extractLsb' 19 6) (w.extractLsb' 14 5) (w.extractLsb' 8 6) (w.extractLsb' 2 6) (w.extractLsb' 0 2))
  | 0x3B =>
    if w.extractLsb' 2 13 = 0#13 then .ok (.bar (w.extractLsb' 20 5) (w.extractLsb' 15 5) (w.extractLsb' 0 2))
    else .error .unassignedSub
  | 0x3C =>
    if w.extractLsb' 2 13 = 0#13 then .ok (.barx (w.extractLsb' 20 5) (w.extractLsb' 15 5) (w.extractLsb' 0 2))
    else .error .unassignedSub
  | 0x40 => .ok (.cpMove (w.extractLsb' 19 6) (w.extractLsb' 14 5) (w.extractLsb' 8 6) (w.extractLsb' 2 6) (w.extractLsb' 1 1) (w.extractLsb' 0 1))
  | 0x41 =>
    if w.extractLsb' 0 2 = 0#2 then .ok (.cpGather (w.extractLsb' 19 6) (w.extractLsb' 14 5) (w.extractLsb' 8 6) (w.extractLsb' 2 6))
    else .error .unassignedSub
  | 0x42 =>
    if w.extractLsb' 0 2 = 0#2 then .ok (.cpScatter (w.extractLsb' 19 6) (w.extractLsb' 14 5) (w.extractLsb' 8 6) (w.extractLsb' 2 6))
    else .error .unassignedSub
  | 0x43 =>
    if w.extractLsb' 0 2 = 0#2 then .ok (.cpPlane (w.extractLsb' 19 6) (w.extractLsb' 14 5) (w.extractLsb' 8 6) (w.extractLsb' 2 6))
    else .error .unassignedSub
  | 0x44 =>
    if w.extractLsb' 0 2 = 0#2 then .ok (.cpUnplane (w.extractLsb' 19 6) (w.extractLsb' 14 5) (w.extractLsb' 8 6) (w.extractLsb' 2 6))
    else .error .unassignedSub
  | 0x45 =>
    if w.extractLsb' 0 2 = 0#2 then .ok (.cpPx8Enc (w.extractLsb' 19 6) (w.extractLsb' 14 5) (w.extractLsb' 8 6) (w.extractLsb' 2 6))
    else if w.extractLsb' 0 2 = 1#2 then .ok (.cpPx8Dec (w.extractLsb' 19 6) (w.extractLsb' 14 5) (w.extractLsb' 8 6) (w.extractLsb' 2 6))
    else if w.extractLsb' 0 2 = 2#2 then .ok (.cpPx8Bf16 (w.extractLsb' 19 6) (w.extractLsb' 14 5) (w.extractLsb' 8 6) (w.extractLsb' 2 6))
    else if w.extractLsb' 0 2 = 3#2 then .ok (.cpPx8Encbf (w.extractLsb' 19 6) (w.extractLsb' 14 5) (w.extractLsb' 8 6) (w.extractLsb' 2 6))
    else .error .unassignedSub
  | 0x46 =>
    if w.extractLsb' 0 2 = 0#2 then .ok (.cpCvt (w.extractLsb' 19 6) (w.extractLsb' 14 5) (w.extractLsb' 8 6) (w.extractLsb' 2 6))
    else .error .unassignedSub
  | 0x47 =>
    if w.extractLsb' 1 1 = 0#1 then .ok (.cpAcc (w.extractLsb' 19 6) (w.extractLsb' 14 5) (w.extractLsb' 8 6) (w.extractLsb' 2 6) (w.extractLsb' 0 1))
    else .error .unassignedSub
  | 0x48 =>
    if w.extractLsb' 1 1 = 0#1 then .ok (.cpTopk (w.extractLsb' 19 6) (w.extractLsb' 14 5) (w.extractLsb' 8 6) (w.extractLsb' 2 6) (w.extractLsb' 0 1))
    else .error .unassignedSub
  | 0x49 =>
    if w.extractLsb' 0 2 = 0#2 then .ok (.cpFill (w.extractLsb' 19 6) (w.extractLsb' 14 5) (w.extractLsb' 8 6) (w.extractLsb' 2 6))
    else .error .unassignedSub
  | 0x4A =>
    if w.extractLsb' 0 15 = 0#15 then .ok (.turn (w.extractLsb' 20 5) (w.extractLsb' 15 5))
    else if w.extractLsb' 0 15 = 1#15 then .ok (.turnW (w.extractLsb' 20 5) (w.extractLsb' 15 5))
    else .error .unassignedSub
  | 0x4B =>
    if w.extractLsb' 0 15 = 0#15 then .ok (.turnq (w.extractLsb' 20 5) (w.extractLsb' 15 5))
    else if w.extractLsb' 0 15 = 1#15 then .ok (.turnqTx (w.extractLsb' 20 5) (w.extractLsb' 15 5))
    else if w.extractLsb' 0 15 = 2#15 then .ok (.turnqRx (w.extractLsb' 20 5) (w.extractLsb' 15 5))
    else .error .unassignedSub
  | 0x4C =>
    if w.extractLsb' 0 2 = 0#2 then .ok (.winset (w.extractLsb' 19 6) (w.extractLsb' 14 5) (w.extractLsb' 8 6) (w.extractLsb' 2 6))
    else .error .unassignedSub
  | 0x4D =>
    if w.extractLsb' 0 20 = 0#20 then .ok (.wincommit (w.extractLsb' 20 5))
    else .error .unassignedSub
  | 0x4E =>
    if w.extractLsb' 0 15 = 0#15 then .ok (.winq (w.extractLsb' 20 5) (w.extractLsb' 15 5))
    else if w.extractLsb' 0 15 = 1#15 then .ok (.winqSt (w.extractLsb' 20 5) (w.extractLsb' 15 5))
    else if w.extractLsb' 0 20 = 2#20 then .ok (.winqGen (w.extractLsb' 20 5))
    else if w.extractLsb' 0 15 = 3#15 then .ok (.winqAllot (w.extractLsb' 20 5) (w.extractLsb' 15 5))
    else .error .unassignedSub
  | 0x50 =>
    if w.extractLsb' 20 5 = 0#5 ∧ w.extractLsb' 0 10 = 0#10 then .ok (.flash (w.extractLsb' 15 5) (w.extractLsb' 10 5))
    else .error .unassignedSub
  | 0x51 =>
    if w.extractLsb' 20 5 = 0#5 ∧ w.extractLsb' 0 10 = 0#10 then .ok (.lstart (w.extractLsb' 15 5) (w.extractLsb' 10 5))
    else .error .unassignedSub
  | 0x52 =>
    if w.extractLsb' 20 5 = 0#5 ∧ w.extractLsb' 0 15 = 0#15 then .ok (.lstop (w.extractLsb' 15 5))
    else .error .unassignedSub
  | 0x53 =>
    if w.extractLsb' 0 15 = 0#15 then .ok (.ljoin (w.extractLsb' 20 5) (w.extractLsb' 15 5))
    else .error .unassignedSub
  | 0x54 =>
    if w.extractLsb' 20 5 = 0#5 ∧ w.extractLsb' 0 10 = 0#10 then .ok (.lgroup (w.extractLsb' 15 5) (w.extractLsb' 10 5))
    else .error .unassignedSub
  | 0x55 =>
    if w.extractLsb' 0 15 = 0#15 then .ok (.lstate (w.extractLsb' 20 5) (w.extractLsb' 15 5))
    else .error .unassignedSub
  | 0x56 =>
    if w.extractLsb' 20 5 = 0#5 ∧ w.extractLsb' 0 10 = 0#10 then .ok (.lwrite (w.extractLsb' 15 5) (w.extractLsb' 10 5))
    else .error .unassignedSub
  | 0x57 =>
    if w.extractLsb' 0 25 = 0#25 then .ok (.lswap)
    else .error .unassignedSub
  | 0x58 =>
    if w.extractLsb' 0 2 = 0#2 then .ok (.lspillOut (w.extractLsb' 19 6) (w.extractLsb' 14 5) (w.extractLsb' 8 6) (w.extractLsb' 2 6))
    else if w.extractLsb' 0 2 = 1#2 then .ok (.lspillIn (w.extractLsb' 19 6) (w.extractLsb' 14 5) (w.extractLsb' 8 6) (w.extractLsb' 2 6))
    else .error .unassignedSub
  | 0x60 =>
    if w.extractLsb' 0 2 = 0#2 then .ok (.send (w.extractLsb' 19 6) (w.extractLsb' 14 5) (w.extractLsb' 8 6) (w.extractLsb' 2 6))
    else .error .unassignedSub
  | 0x61 =>
    if w.extractLsb' 0 2 = 0#2 then .ok (.ssend (w.extractLsb' 19 6) (w.extractLsb' 14 5) (w.extractLsb' 8 6) (w.extractLsb' 2 6))
    else .error .unassignedSub
  | 0x62 =>
    if w.extractLsb' 0 2 = 0#2 then .ok (.sendTree (w.extractLsb' 19 6) (w.extractLsb' 14 5) (w.extractLsb' 8 6) (w.extractLsb' 2 6))
    else .error .unassignedSub
  | 0x63 =>
    if w.extractLsb' 0 2 = 0#2 then .ok (.recv (w.extractLsb' 19 6) (w.extractLsb' 14 5) (w.extractLsb' 8 6) (w.extractLsb' 2 6))
    else .error .unassignedSub
  | 0x64 =>
    if w.extractLsb' 0 2 = 0#2 then .ok (.recvAdd (w.extractLsb' 19 6) (w.extractLsb' 14 5) (w.extractLsb' 8 6) (w.extractLsb' 2 6))
    else .error .unassignedSub
  | 0x65 =>
    if w.extractLsb' 0 2 = 0#2 then .ok (.recvPx8 (w.extractLsb' 19 6) (w.extractLsb' 14 5) (w.extractLsb' 8 6) (w.extractLsb' 2 6))
    else .error .unassignedSub
  | 0x66 =>
    if w.extractLsb' 0 10 = 0#10 then .ok (.probe (w.extractLsb' 20 5) (w.extractLsb' 15 5) (w.extractLsb' 10 5))
    else if w.extractLsb' 0 10 = 1#10 then .ok (.probeLen (w.extractLsb' 20 5) (w.extractLsb' 15 5) (w.extractLsb' 10 5))
    else .error .unassignedSub
  | 0x67 =>
    if w.extractLsb' 0 15 = 0#15 then .ok (.cancel (w.extractLsb' 20 5) (w.extractLsb' 15 5))
    else .error .unassignedSub
  | 0x68 =>
    if w.extractLsb' 0 15 = 0#15 then .ok (.mwait (w.extractLsb' 20 5) (w.extractLsb' 15 5))
    else .error .unassignedSub
  | 0x69 =>
    if w.extractLsb' 0 10 = 0#10 then .ok (.mtest (w.extractLsb' 20 5) (w.extractLsb' 15 5) (w.extractLsb' 10 5))
    else .error .unassignedSub
  | 0x6A =>
    if w.extractLsb' 0 15 = 0#15 then .ok (.mstat (w.extractLsb' 20 5) (w.extractLsb' 15 5))
    else .error .unassignedSub
  | 0x6B =>
    if w.extractLsb' 20 5 = 0#5 ∧ w.extractLsb' 0 15 = 0#15 then .ok (.mquiesce (w.extractLsb' 15 5))
    else .error .unassignedSub
  | 0x70 =>
    if w.extractLsb' 0 2 = 0#2 then .ok (.lmm (w.extractLsb' 19 6) (w.extractLsb' 14 5) (w.extractLsb' 8 6) (w.extractLsb' 2 6))
    else .error .unassignedSub
  | 0x71 =>
    if w.extractLsb' 0 2 = 0#2 then .ok (.lmms (w.extractLsb' 19 6) (w.extractLsb' 14 5) (w.extractLsb' 8 6) (w.extractLsb' 2 6))
    else .error .unassignedSub
  | 0x72 =>
    if w.extractLsb' 0 2 = 0#2 then .ok (.lrank (w.extractLsb' 19 6) (w.extractLsb' 14 5) (w.extractLsb' 8 6) (w.extractLsb' 2 6))
    else .error .unassignedSub
  | 0x73 =>
    if w.extractLsb' 0 2 = 0#2 then .ok (.accLoad (w.extractLsb' 19 6) (w.extractLsb' 14 5) (w.extractLsb' 8 6) (w.extractLsb' 2 6))
    else .error .unassignedSub
  | 0x74 =>
    if w.extractLsb' 0 2 = 0#2 then .ok (.accClr (w.extractLsb' 19 6) (w.extractLsb' 14 5) (w.extractLsb' 8 6) (w.extractLsb' 2 6))
    else .error .unassignedSub
  | 0x75 =>
    if w.extractLsb' 0 2 = 0#2 then .ok (.accMerge (w.extractLsb' 19 6) (w.extractLsb' 14 5) (w.extractLsb' 8 6) (w.extractLsb' 2 6))
    else .error .unassignedSub
  | 0x76 =>
    if w.extractLsb' 0 2 = 0#2 then .ok (.drain (w.extractLsb' 19 6) (w.extractLsb' 14 5) (w.extractLsb' 8 6) (w.extractLsb' 2 6))
    else .error .unassignedSub
  | 0x77 =>
    if w.extractLsb' 0 2 = 0#2 then .ok (.accFree (w.extractLsb' 19 6) (w.extractLsb' 14 5) (w.extractLsb' 8 6) (w.extractLsb' 2 6))
    else .error .unassignedSub
  | 0x78 =>
    if w.extractLsb' 0 2 = 0#2 then .ok (.accOwn (w.extractLsb' 19 6) (w.extractLsb' 14 5) (w.extractLsb' 8 6) (w.extractLsb' 2 6))
    else .error .unassignedSub
  | 0x79 =>
    if w.extractLsb' 0 15 = 0#15 then .ok (.accAlloc (w.extractLsb' 20 5) (w.extractLsb' 15 5))
    else .error .unassignedSub
  | 0x7A =>
    if w.extractLsb' 0 15 = 0#15 then .ok (.lqueryStatus (w.extractLsb' 20 5) (w.extractLsb' 15 5))
    else if w.extractLsb' 0 15 = 1#15 then .ok (.lqueryFault (w.extractLsb' 20 5) (w.extractLsb' 15 5))
    else if w.extractLsb' 0 15 = 2#15 then .ok (.lqueryBank (w.extractLsb' 20 5) (w.extractLsb' 15 5))
    else .error .unassignedSub
  | _ => .error .unassignedOp

/-- The word of a keeper instruction, from the same formats; none for a row that is no keeper word. -/
def encode : Instr → Option W32
  | .add d a b => some (0x01#7 ++ d ++ a ++ b ++ 0#10)
  | .sub d a b => some (0x01#7 ++ d ++ a ++ b ++ 1#10)
  | .and d a b => some (0x01#7 ++ d ++ a ++ b ++ 2#10)
  | .or d a b => some (0x01#7 ++ d ++ a ++ b ++ 3#10)
  | .xor d a b => some (0x01#7 ++ d ++ a ++ b ++ 4#10)
  | .andn d a b => some (0x01#7 ++ d ++ a ++ b ++ 5#10)
  | .shl d a b => some (0x01#7 ++ d ++ a ++ b ++ 6#10)
  | .shr d a b => some (0x01#7 ++ d ++ a ++ b ++ 7#10)
  | .sar d a b => some (0x01#7 ++ d ++ a ++ b ++ 8#10)
  | .slt d a b => some (0x01#7 ++ d ++ a ++ b ++ 9#10)
  | .sltu d a b => some (0x01#7 ++ d ++ a ++ b ++ 10#10)
  | .min d a b => some (0x01#7 ++ d ++ a ++ b ++ 11#10)
  | .max d a b => some (0x01#7 ++ d ++ a ++ b ++ 12#10)
  | .minu d a b => some (0x01#7 ++ d ++ a ++ b ++ 13#10)
  | .maxu d a b => some (0x01#7 ++ d ++ a ++ b ++ 14#10)
  | .mul d a b => some (0x01#7 ++ d ++ a ++ b ++ 15#10)
  | .mulh d a b => some (0x01#7 ++ d ++ a ++ b ++ 16#10)
  | .mulhu d a b => some (0x01#7 ++ d ++ a ++ b ++ 17#10)
  | .div d a b => some (0x01#7 ++ d ++ a ++ b ++ 18#10)
  | .divu d a b => some (0x01#7 ++ d ++ a ++ b ++ 19#10)
  | .rem d a b => some (0x01#7 ++ d ++ a ++ b ++ 20#10)
  | .remu d a b => some (0x01#7 ++ d ++ a ++ b ++ 21#10)
  | .popc d a => some (0x01#7 ++ d ++ a ++ 22#15)
  | .clz d a => some (0x01#7 ++ d ++ a ++ 23#15)
  | .ctz d a => some (0x01#7 ++ d ++ a ++ 24#15)
  | .addi d a i => some (0x02#7 ++ d ++ a ++ i)
  | .andi d a i => some (0x03#7 ++ d ++ a ++ i)
  | .ori d a i => some (0x04#7 ++ d ++ a ++ i)
  | .xori d a i => some (0x05#7 ++ d ++ a ++ i)
  | .slti d a i => some (0x06#7 ++ d ++ a ++ i)
  | .sltiu d a i => some (0x07#7 ++ d ++ a ++ i)
  | .shli d a c => some (0x08#7 ++ d ++ a ++ 0#9 ++ c)
  | .shri d a c => some (0x09#7 ++ d ++ a ++ 0#9 ++ c)
  | .sari d a c => some (0x0A#7 ++ d ++ a ++ 0#9 ++ c)
  | .addhi d a i => some (0x0B#7 ++ d ++ a ++ i)
  | .lb d a i => some (0x10#7 ++ d ++ a ++ i)
  | .lbu d a i => some (0x11#7 ++ d ++ a ++ i)
  | .lh d a i => some (0x12#7 ++ d ++ a ++ i)
  | .lhu d a i => some (0x13#7 ++ d ++ a ++ i)
  | .lw d a i => some (0x14#7 ++ d ++ a ++ i)
  | .lwu d a i => some (0x15#7 ++ d ++ a ++ i)
  | .ld d a i => some (0x16#7 ++ d ++ a ++ i)
  | .ldSk d a i => some (0x17#7 ++ d ++ a ++ i)
  | .sb s a i => some (0x18#7 ++ s ++ a ++ i)
  | .sh s a i => some (0x19#7 ++ s ++ a ++ i)
  | .sw s a i => some (0x1A#7 ++ s ++ a ++ i)
  | .sd s a i => some (0x1B#7 ++ s ++ a ++ i)
  | .sdSk s a i => some (0x1C#7 ++ s ++ a ++ i)
  | .beq a b i => some (0x20#7 ++ a ++ b ++ i)
  | .bne a b i => some (0x21#7 ++ a ++ b ++ i)
  | .blt a b i => some (0x22#7 ++ a ++ b ++ i)
  | .bge a b i => some (0x23#7 ++ a ++ b ++ i)
  | .bltu a b i => some (0x24#7 ++ a ++ b ++ i)
  | .bgeu a b i => some (0x25#7 ++ a ++ b ++ i)
  | .j i => some (0x26#7 ++ i)
  | .jal i => some (0x27#7 ++ i)
  | .jalr d a i => some (0x28#7 ++ d ++ a ++ i)
  | .crr d r => some (0x30#7 ++ d ++ r ++ 0#8)
  | .crw s r => some (0x30#7 ++ s ++ r ++ 1#8)
  | .crs s r => some (0x30#7 ++ s ++ r ++ 2#8)
  | .crc s r => some (0x30#7 ++ s ++ r ++ 3#8)
  | .nop => some (0x31#7 ++ 0#25)
  | .tret => some (0x31#7 ++ 1#25)
  | .ckpt => some (0x31#7 ++ 2#25)
  | .dhalt => some (0x31#7 ++ 3#25)
  | .waitev d a => some (0x31#7 ++ d ++ a ++ 4#15)
  | .twait a => some (0x31#7 ++ 0#5 ++ a ++ 5#15)
  | .twaita d a => some (0x31#7 ++ d ++ a ++ 6#15)
  | .done a => some (0x31#7 ++ 0#5 ++ a ++ 7#15)
  | .ann d a b x => some (0x38#7 ++ d ++ a ++ b ++ 0#8 ++ x)
  | .annL d b x => some (0x38#7 ++ d ++ 0#5 ++ b ++ 1#8 ++ x)
  | .voteAnd d a b x => some (0x39#7 ++ d ++ a ++ b ++ 0#8 ++ x)
  | .voteOr d a b x => some (0x39#7 ++ d ++ a ++ b ++ 1#8 ++ x)
  | .voteMax d a b x => some (0x39#7 ++ d ++ a ++ b ++ 2#8 ++ x)
  | .voteMin d a b x => some (0x39#7 ++ d ++ a ++ b ++ 3#8 ++ x)
  | .voteMaxs d a b x => some (0x39#7 ++ d ++ a ++ b ++ 4#8 ++ x)
  | .voteMins d a b x => some (0x39#7 ++ d ++ a ++ b ++ 5#8 ++ x)
  | .scan t k m n x => some (0x3A#7 ++ t ++ k ++ m ++ n ++ x)
  | .bar d a x => some (0x3B#7 ++ d ++ a ++ 0#13 ++ x)
  | .barx d a x => some (0x3C#7 ++ d ++ a ++ 0#13 ++ x)
  | .cpMove t k m n y x => some (0x40#7 ++ t ++ k ++ m ++ n ++ y ++ x)
  | .cpGather t k m n => some (0x41#7 ++ t ++ k ++ m ++ n ++ 0#2)
  | .cpScatter t k m n => some (0x42#7 ++ t ++ k ++ m ++ n ++ 0#2)
  | .cpPlane t k m n => some (0x43#7 ++ t ++ k ++ m ++ n ++ 0#2)
  | .cpUnplane t k m n => some (0x44#7 ++ t ++ k ++ m ++ n ++ 0#2)
  | .cpPx8Enc t k m n => some (0x45#7 ++ t ++ k ++ m ++ n ++ 0#2)
  | .cpPx8Dec t k m n => some (0x45#7 ++ t ++ k ++ m ++ n ++ 1#2)
  | .cpPx8Bf16 t k m n => some (0x45#7 ++ t ++ k ++ m ++ n ++ 2#2)
  | .cpPx8Encbf t k m n => some (0x45#7 ++ t ++ k ++ m ++ n ++ 3#2)
  | .cpCvt t k m n => some (0x46#7 ++ t ++ k ++ m ++ n ++ 0#2)
  | .cpAcc t k m n c => some (0x47#7 ++ t ++ k ++ m ++ n ++ 0#1 ++ c)
  | .cpTopk t k m n c => some (0x48#7 ++ t ++ k ++ m ++ n ++ 0#1 ++ c)
  | .cpFill t k m n => some (0x49#7 ++ t ++ k ++ m ++ n ++ 0#2)
  | .turn d a => some (0x4A#7 ++ d ++ a ++ 0#15)
  | .turnW d a => some (0x4A#7 ++ d ++ a ++ 1#15)
  | .turnq d a => some (0x4B#7 ++ d ++ a ++ 0#15)
  | .turnqTx d a => some (0x4B#7 ++ d ++ a ++ 1#15)
  | .turnqRx d a => some (0x4B#7 ++ d ++ a ++ 2#15)
  | .winset t k m n => some (0x4C#7 ++ t ++ k ++ m ++ n ++ 0#2)
  | .wincommit d => some (0x4D#7 ++ d ++ 0#20)
  | .winq d a => some (0x4E#7 ++ d ++ a ++ 0#15)
  | .winqSt d a => some (0x4E#7 ++ d ++ a ++ 1#15)
  | .winqGen d => some (0x4E#7 ++ d ++ 2#20)
  | .winqAllot d a => some (0x4E#7 ++ d ++ a ++ 3#15)
  | .flash a b => some (0x50#7 ++ 0#5 ++ a ++ b ++ 0#10)
  | .lstart a b => some (0x51#7 ++ 0#5 ++ a ++ b ++ 0#10)
  | .lstop a => some (0x52#7 ++ 0#5 ++ a ++ 0#15)
  | .ljoin d a => some (0x53#7 ++ d ++ a ++ 0#15)
  | .lgroup a b => some (0x54#7 ++ 0#5 ++ a ++ b ++ 0#10)
  | .lstate d a => some (0x55#7 ++ d ++ a ++ 0#15)
  | .lwrite a b => some (0x56#7 ++ 0#5 ++ a ++ b ++ 0#10)
  | .lswap => some (0x57#7 ++ 0#25)
  | .lspillOut t k m n => some (0x58#7 ++ t ++ k ++ m ++ n ++ 0#2)
  | .lspillIn t k m n => some (0x58#7 ++ t ++ k ++ m ++ n ++ 1#2)
  | .send t k m n => some (0x60#7 ++ t ++ k ++ m ++ n ++ 0#2)
  | .ssend t k m n => some (0x61#7 ++ t ++ k ++ m ++ n ++ 0#2)
  | .sendTree t k m n => some (0x62#7 ++ t ++ k ++ m ++ n ++ 0#2)
  | .recv t k m n => some (0x63#7 ++ t ++ k ++ m ++ n ++ 0#2)
  | .recvAdd t k m n => some (0x64#7 ++ t ++ k ++ m ++ n ++ 0#2)
  | .recvPx8 t k m n => some (0x65#7 ++ t ++ k ++ m ++ n ++ 0#2)
  | .probe d a b => some (0x66#7 ++ d ++ a ++ b ++ 0#10)
  | .probeLen d a b => some (0x66#7 ++ d ++ a ++ b ++ 1#10)
  | .cancel d a => some (0x67#7 ++ d ++ a ++ 0#15)
  | .mwait d a => some (0x68#7 ++ d ++ a ++ 0#15)
  | .mtest d a b => some (0x69#7 ++ d ++ a ++ b ++ 0#10)
  | .mstat d a => some (0x6A#7 ++ d ++ a ++ 0#15)
  | .mquiesce a => some (0x6B#7 ++ 0#5 ++ a ++ 0#15)
  | .lmm t k m n => some (0x70#7 ++ t ++ k ++ m ++ n ++ 0#2)
  | .lmms t k m n => some (0x71#7 ++ t ++ k ++ m ++ n ++ 0#2)
  | .lrank t k m n => some (0x72#7 ++ t ++ k ++ m ++ n ++ 0#2)
  | .accLoad t k m n => some (0x73#7 ++ t ++ k ++ m ++ n ++ 0#2)
  | .accClr t k m n => some (0x74#7 ++ t ++ k ++ m ++ n ++ 0#2)
  | .accMerge t k m n => some (0x75#7 ++ t ++ k ++ m ++ n ++ 0#2)
  | .drain t k m n => some (0x76#7 ++ t ++ k ++ m ++ n ++ 0#2)
  | .accFree t k m n => some (0x77#7 ++ t ++ k ++ m ++ n ++ 0#2)
  | .accOwn t k m n => some (0x78#7 ++ t ++ k ++ m ++ n ++ 0#2)
  | .accAlloc d a => some (0x79#7 ++ d ++ a ++ 0#15)
  | .lqueryStatus d a => some (0x7A#7 ++ d ++ a ++ 0#15)
  | .lqueryFault d a => some (0x7A#7 ++ d ++ a ++ 1#15)
  | .lqueryBank d a => some (0x7A#7 ++ d ++ a ++ 2#15)
  | _ => none

/-- The operations that both integer units perform (R117, R118). -/
def intOp (u : IntUnit) (op : Nat) : Option Instr :=
  match op with
  | 0x00 => some (.iaAdd u .w8)
  | 0x01 => some (.iaAdd u .w16)
  | 0x02 => some (.iaAdd u .w32)
  | 0x03 => some (.iaSub u .w8)
  | 0x04 => some (.iaSub u .w16)
  | 0x05 => some (.iaSub u .w32)
  | 0x06 => some (.addsS u .w8)
  | 0x07 => some (.addsS u .w16)
  | 0x08 => some (.addsS u .w32)
  | 0x09 => some (.addsZ u .w8)
  | 0x0A => some (.addsZ u .w16)
  | 0x0B => some (.addsZ u .w32)
  | 0x0C => some (.subsS u .w8)
  | 0x0D => some (.subsS u .w16)
  | 0x0E => some (.subsS u .w32)
  | 0x0F => some (.subsZ u .w8)
  | 0x10 => some (.subsZ u .w16)
  | 0x11 => some (.subsZ u .w32)
  | 0x12 => some (.minS u .w8)
  | 0x13 => some (.minS u .w16)
  | 0x14 => some (.minS u .w32)
  | 0x15 => some (.minZ u .w8)
  | 0x16 => some (.minZ u .w16)
  | 0x17 => some (.minZ u .w32)
  | 0x18 => some (.maxS u .w8)
  | 0x19 => some (.maxS u .w16)
  | 0x1A => some (.maxS u .w32)
  | 0x1B => some (.maxZ u .w8)
  | 0x1C => some (.maxZ u .w16)
  | 0x1D => some (.maxZ u .w32)
  | 0x1E => some (.iaShl u .w8)
  | 0x1F => some (.iaShl u .w16)
  | 0x20 => some (.iaShl u .w32)
  | 0x21 => some (.shrZ u .w8)
  | 0x22 => some (.shrZ u .w16)
  | 0x23 => some (.shrZ u .w32)
  | 0x24 => some (.shrS u .w8)
  | 0x25 => some (.shrS u .w16)
  | 0x26 => some (.shrS u .w32)
  | 0x27 => some (.andB128 u)
  | 0x28 => some (.orB128 u)
  | 0x29 => some (.xorB128 u)
  | 0x2A => some (.andnB128 u)
  | 0x2B => some (.notB128 u)
  | 0x2C => some (.movB128 u)
  | 0x2D => some (.addS64 u)
  | 0x2E => some (.subS64 u)
  | _ => none

/-- The operations of `ib` alone (R118). -/
def ibOp (op : Nat) : Option Instr :=
  match op with
  | 0x2F => some (.ibMul .w8)
  | 0x30 => some (.ibMul .w16)
  | 0x31 => some (.ibMul .w32)
  | 0x32 => some (.mulwS .w8)
  | 0x33 => some (.mulwZ .w8)
  | 0x34 => some (.mulwS .w16)
  | 0x35 => some (.mulwZ .w16)
  | 0x36 => some (.mulwS .w32)
  | 0x37 => some (.mulwZ .w32)
  | 0x38 => some .popcB32
  | 0x39 => some .permB8
  | 0x3A => some .permB32
  | 0x3B => some .bcastB32
  | 0x3C => some (.zipl false)
  | 0x3D => some (.ziph false)
  | 0x3E => some (.zipl true)
  | 0x3F => some (.ziph true)
  | _ => none

/-- The operations of `fm` (R119): 4 times the operation plus the lane type. -/
def fmOp (op : Nat) : Option Instr :=
  match op with
  | 0x00 => some (.fma .f32)
  | 0x01 => some (.fma .f16)
  | 0x02 => some (.fma .bf16)
  | 0x04 => some (.fms .f32)
  | 0x05 => some (.fms .f16)
  | 0x06 => some (.fms .bf16)
  | 0x08 => some (.fnma .f32)
  | 0x09 => some (.fnma .f16)
  | 0x0A => some (.fnma .bf16)
  | 0x0C => some (.fnms .f32)
  | 0x0D => some (.fnms .f16)
  | 0x0E => some (.fnms .bf16)
  | 0x10 => some (.fmAdd .f32)
  | 0x11 => some (.fmAdd .f16)
  | 0x12 => some (.fmAdd .bf16)
  | 0x14 => some (.fmSub .f32)
  | 0x15 => some (.fmSub .f16)
  | 0x16 => some (.fmSub .bf16)
  | 0x18 => some (.fmMul .f32)
  | 0x19 => some (.fmMul .f16)
  | 0x1A => some (.fmMul .bf16)
  | 0x1C => some (.fmMin .f32)
  | 0x1D => some (.fmMin .f16)
  | 0x1E => some (.fmMin .bf16)
  | 0x20 => some (.fmMax .f32)
  | 0x21 => some (.fmMax .f16)
  | 0x22 => some (.fmMax .bf16)
  | 0x24 => some (.fmAbs .f32)
  | 0x25 => some (.fmAbs .f16)
  | 0x26 => some (.fmAbs .bf16)
  | 0x28 => some (.fmNeg .f32)
  | 0x29 => some (.fmNeg .f16)
  | 0x2A => some (.fmNeg .bf16)
  | 0x3C => some .rdflag
  | 0x3D => some .wrflag
  | 0x3E => some .rdmode
  | 0x3F => some .wrmode
  | _ => none

/-- The operations of `sf` (R120). -/
def sfOp (op : Nat) : Option Instr :=
  match op with
  | 0x00 => some .rcp
  | 0x01 => some .sqrt
  | 0x02 => some .rsqrt
  | 0x03 => some .exp2
  | 0x04 => some .log2
  | _ => none

/-- The operations of `cv` (R121). -/
def cvOp (op : Nat) : Option Instr :=
  match op with
  | 0x00 => some .cvtBf16
  | 0x01 => some .cvtF16
  | 0x02 => some .cvtE4m3
  | 0x03 => some .cvtE5m2
  | 0x04 => some .cvtE2m1
  | 0x05 => some .cvtE4m3Bf16
  | 0x06 => some .cvtE5m2Bf16
  | 0x07 => some .cvtF16Bf16
  | 0x08 => some .cvtS32
  | 0x09 => some .cvtF32S32
  | 0x0A => some .cvtS8S32
  | 0x0B => some .cvtS16S32
  | 0x0C => some .cvtS4S8
  | 0x0D => some .cvtZ8S32
  | 0x10 => some (.cvtSr .bf16)
  | 0x11 => some (.cvtSr .f16)
  | 0x12 => some (.cvtSr .e4m3)
  | 0x13 => some (.cvtSr .e5m2)
  | 0x14 => some (.cvtSr .e2m1)
  | 0x15 => some (.cvtSr .e4m3Bf16)
  | 0x16 => some (.cvtSr .e5m2Bf16)
  | 0x17 => some (.cvtSr .f16Bf16)
  | 0x18 => some (.cvtSr .s32)
  | 0x19 => some (.cvtSr .f32S32)
  | 0x20 => some .cvtF32Bf16
  | 0x21 => some .cvtF32F16
  | 0x22 => some .cvtF32E4m3
  | 0x23 => some .cvtF32E5m2
  | 0x24 => some .cvtF32E2m1
  | 0x25 => some .cvtBf16E4m3
  | 0x26 => some .cvtBf16E5m2
  | 0x27 => some .cvtBf16E2m1
  | 0x28 => some .cvtS32S8
  | 0x29 => some .cvtS32Z8
  | 0x2A => some .cvtS32S16
  | 0x2B => some .cvtS8S4
  | 0x2C => some .cvtF32Mxi8
  | 0x30 => some .px8E4m3
  | 0x31 => some .px8Bf16
  | 0x32 => some .planePack
  | 0x33 => some .planeUnpack
  | 0x34 => some .rdrng
  | _ => none

/-- The operations of `ls` (R122). -/
def lsOp (op : Nat) : Option Instr :=
  match op with
  | 0x00 => some .lsLd
  | 0x01 => some .lsLdSk
  | 0x02 => some .lsSt
  | 0x03 => some .lsStSk
  | 0x04 => some .ldB32
  | 0x05 => some .stB32
  | 0x06 => some .ldgB32
  | 0x07 => some .stgB32
  | 0x08 => some .ldb
  | 0x09 => some .stb
  | 0x10 => some .ldacc
  | 0x11 => some .ldaccCol
  | 0x12 => some .stacc
  | 0x18 => some .atomAddF32
  | 0x19 => some .atomAddBf16
  | 0x1A => some .atomAddS32
  | _ => none

/-- The operations of `pr` (R123): 4 times the type plus the condition. -/
def prOp (op : Nat) : Option Instr :=
  match op with
  | 0x00 => some (.cmpEq .s8)
  | 0x01 => some (.cmpNe .s8)
  | 0x02 => some (.cmpLt .s8)
  | 0x03 => some (.cmpLe .s8)
  | 0x04 => some (.cmpEq .s16)
  | 0x05 => some (.cmpNe .s16)
  | 0x06 => some (.cmpLt .s16)
  | 0x07 => some (.cmpLe .s16)
  | 0x08 => some (.cmpEq .s32)
  | 0x09 => some (.cmpNe .s32)
  | 0x0A => some (.cmpLt .s32)
  | 0x0B => some (.cmpLe .s32)
  | 0x0C => some (.cmpEq .z8)
  | 0x0D => some (.cmpNe .z8)
  | 0x0E => some (.cmpLt .z8)
  | 0x0F => some (.cmpLe .z8)
  | 0x10 => some (.cmpEq .z16)
  | 0x11 => some (.cmpNe .z16)
  | 0x12 => some (.cmpLt .z16)
  | 0x13 => some (.cmpLe .z16)
  | 0x14 => some (.cmpEq .z32)
  | 0x15 => some (.cmpNe .z32)
  | 0x16 => some (.cmpLt .z32)
  | 0x17 => some (.cmpLe .z32)
  | 0x18 => some (.cmpEq .f32)
  | 0x19 => some (.cmpNe .f32)
  | 0x1A => some (.cmpLt .f32)
  | 0x1B => some (.cmpLe .f32)
  | 0x1C => some (.cmpEq .f16)
  | 0x1D => some (.cmpNe .f16)
  | 0x1E => some (.cmpLt .f16)
  | 0x1F => some (.cmpLe .f16)
  | 0x20 => some (.cmpEq .bf16)
  | 0x21 => some (.cmpNe .bf16)
  | 0x22 => some (.cmpLt .bf16)
  | 0x23 => some (.cmpLe .bf16)
  | 0x24 => some .anyB32
  | 0x25 => some .allB32
  | 0x26 => some .selB128
  | 0x27 => some .pand
  | 0x28 => some .por
  | 0x29 => some .pxor
  | 0x2A => some .pnot
  | 0x2B => some .maskB32
  | 0x2C => some .maskB16
  | 0x2D => some .maskB8
  | _ => none

/-- The operations of `ct` that have a trigger port (R124). -/
def ctOp (op : Nat) : Option Instr :=
  match op with
  | 0x00 => some .fetch
  | 0x01 => some .next
  | 0x02 => some .jump
  | 0x03 => some .stop
  | 0x04 => some .rep
  | 0x05 => some .fence
  | 0x08 => some .give
  | 0x09 => some .pass
  | 0x0A => some .claim
  | 0x0B => some .take
  | _ => none

/-- The destinations 0x028-0x02C, which belong to `ct` and are no triggers (R113). -/
def sendOp (op : Nat) : Option Instr :=
  match op with
  | 0x28 => some .linkNext
  | 0x29 => some .linkPrev
  | 0x2A => some .linkIdx
  | 0x2B => some .signal
  | 0x2C => some .linkreg
  | _ => none

/-- The operation of a trigger port 0x200 + 64 u + opcode, or none where the opcode is unassigned (R113, R117). -/
def decodeTrigger (d : BitVec 10) : Option Instr :=
  let op := d.toNat % 64
  match d.toNat / 64 with
  | 8 => intOp .ia op
  | 9 => (intOp .ib op).orElse (fun _ => ibOp op)
  | 10 => fmOp op
  | 11 => sfOp op
  | 12 => cvOp op
  | 13 => lsOp op
  | 14 => prOp op
  | 15 => ctOp op
  | _ => none

/-- The first trigger port of an integer unit (R117, R118). -/
def IntUnit.base : IntUnit → Nat
  | .ia => 0x200
  | .ib => 0x240

/-- The place of a lane width among the three that an entry of the opcode map lists (R117). -/
def LaneW.code : LaneW → Nat
  | .w8 => 0
  | .w16 => 1
  | .w32 => 2

/-- The type number of an `fm` operation (R119). -/
def FmType.code : FmType → Nat
  | .f32 => 0
  | .f16 => 1
  | .bf16 => 2

/-- The type number of a compare (R123). -/
def CmpType.code : CmpType → Nat
  | .s8 => 0
  | .s16 => 1
  | .s32 => 2
  | .z8 => 3
  | .z16 => 4
  | .z32 => 5
  | .f32 => 6
  | .f16 => 7
  | .bf16 => 8

/-- The opcode of the conversion whose stochastic form this is (R121). -/
def SrKind.code : SrKind → Nat
  | .bf16 => 0
  | .f16 => 1
  | .e4m3 => 2
  | .e5m2 => 3
  | .e2m1 => 4
  | .e4m3Bf16 => 5
  | .e5m2Bf16 => 6
  | .f16Bf16 => 7
  | .s32 => 8
  | .f32S32 => 9

/-- The destination field that starts a lamp operation: a trigger port (R117) or one of 0x028-0x02C (R113);
none for a row that is no lamp operation. -/
def portOf : Instr → Option (BitVec 10)
  | .iaAdd u w => some (BitVec.ofNat 10 (u.base + 0x00 + w.code))
  | .iaSub u w => some (BitVec.ofNat 10 (u.base + 0x03 + w.code))
  | .addsS u w => some (BitVec.ofNat 10 (u.base + 0x06 + w.code))
  | .addsZ u w => some (BitVec.ofNat 10 (u.base + 0x09 + w.code))
  | .subsS u w => some (BitVec.ofNat 10 (u.base + 0x0C + w.code))
  | .subsZ u w => some (BitVec.ofNat 10 (u.base + 0x0F + w.code))
  | .minS u w => some (BitVec.ofNat 10 (u.base + 0x12 + w.code))
  | .minZ u w => some (BitVec.ofNat 10 (u.base + 0x15 + w.code))
  | .maxS u w => some (BitVec.ofNat 10 (u.base + 0x18 + w.code))
  | .maxZ u w => some (BitVec.ofNat 10 (u.base + 0x1B + w.code))
  | .iaShl u w => some (BitVec.ofNat 10 (u.base + 0x1E + w.code))
  | .shrZ u w => some (BitVec.ofNat 10 (u.base + 0x21 + w.code))
  | .shrS u w => some (BitVec.ofNat 10 (u.base + 0x24 + w.code))
  | .andB128 u => some (BitVec.ofNat 10 (u.base + 0x27))
  | .orB128 u => some (BitVec.ofNat 10 (u.base + 0x28))
  | .xorB128 u => some (BitVec.ofNat 10 (u.base + 0x29))
  | .andnB128 u => some (BitVec.ofNat 10 (u.base + 0x2A))
  | .notB128 u => some (BitVec.ofNat 10 (u.base + 0x2B))
  | .movB128 u => some (BitVec.ofNat 10 (u.base + 0x2C))
  | .addS64 u => some (BitVec.ofNat 10 (u.base + 0x2D))
  | .subS64 u => some (BitVec.ofNat 10 (u.base + 0x2E))
  | .ibMul w => some (BitVec.ofNat 10 (0x26F + w.code))
  | .mulwS w => some (BitVec.ofNat 10 (0x272 + 2 * w.code))
  | .mulwZ w => some (BitVec.ofNat 10 (0x273 + 2 * w.code))
  | .popcB32 => some 0x278
  | .permB8 => some 0x279
  | .permB32 => some 0x27A
  | .bcastB32 => some 0x27B
  | .zipl w32 => some (if w32 then 0x27E else 0x27C)
  | .ziph w32 => some (if w32 then 0x27F else 0x27D)
  | .fma ty => some (BitVec.ofNat 10 (0x280 + ty.code))
  | .fms ty => some (BitVec.ofNat 10 (0x284 + ty.code))
  | .fnma ty => some (BitVec.ofNat 10 (0x288 + ty.code))
  | .fnms ty => some (BitVec.ofNat 10 (0x28C + ty.code))
  | .fmAdd ty => some (BitVec.ofNat 10 (0x290 + ty.code))
  | .fmSub ty => some (BitVec.ofNat 10 (0x294 + ty.code))
  | .fmMul ty => some (BitVec.ofNat 10 (0x298 + ty.code))
  | .fmMin ty => some (BitVec.ofNat 10 (0x29C + ty.code))
  | .fmMax ty => some (BitVec.ofNat 10 (0x2A0 + ty.code))
  | .fmAbs ty => some (BitVec.ofNat 10 (0x2A4 + ty.code))
  | .fmNeg ty => some (BitVec.ofNat 10 (0x2A8 + ty.code))
  | .rdflag => some 0x2BC
  | .wrflag => some 0x2BD
  | .rdmode => some 0x2BE
  | .wrmode => some 0x2BF
  | .rcp => some 0x2C0
  | .sqrt => some 0x2C1
  | .rsqrt => some 0x2C2
  | .exp2 => some 0x2C3
  | .log2 => some 0x2C4
  | .cvtBf16 => some 0x300
  | .cvtF16 => some 0x301
  | .cvtE4m3 => some 0x302
  | .cvtE5m2 => some 0x303
  | .cvtE2m1 => some 0x304
  | .cvtE4m3Bf16 => some 0x305
  | .cvtE5m2Bf16 => some 0x306
  | .cvtF16Bf16 => some 0x307
  | .cvtS32 => some 0x308
  | .cvtF32S32 => some 0x309
  | .cvtS8S32 => some 0x30A
  | .cvtS16S32 => some 0x30B
  | .cvtS4S8 => some 0x30C
  | .cvtZ8S32 => some 0x30D
  | .cvtF32Bf16 => some 0x320
  | .cvtF32F16 => some 0x321
  | .cvtF32E4m3 => some 0x322
  | .cvtF32E5m2 => some 0x323
  | .cvtF32E2m1 => some 0x324
  | .cvtBf16E4m3 => some 0x325
  | .cvtBf16E5m2 => some 0x326
  | .cvtBf16E2m1 => some 0x327
  | .cvtS32S8 => some 0x328
  | .cvtS32Z8 => some 0x329
  | .cvtS32S16 => some 0x32A
  | .cvtS8S4 => some 0x32B
  | .cvtF32Mxi8 => some 0x32C
  | .px8E4m3 => some 0x330
  | .px8Bf16 => some 0x331
  | .planePack => some 0x332
  | .planeUnpack => some 0x333
  | .rdrng => some 0x334
  | .lsLd => some 0x340
  | .lsLdSk => some 0x341
  | .lsSt => some 0x342
  | .lsStSk => some 0x343
  | .ldB32 => some 0x344
  | .stB32 => some 0x345
  | .ldgB32 => some 0x346
  | .stgB32 => some 0x347
  | .ldb => some 0x348
  | .stb => some 0x349
  | .ldacc => some 0x350
  | .ldaccCol => some 0x351
  | .stacc => some 0x352
  | .atomAddF32 => some 0x358
  | .atomAddBf16 => some 0x359
  | .atomAddS32 => some 0x35A
  | .cvtSr k => some (BitVec.ofNat 10 (0x310 + k.code))
  | .cmpEq ty => some (BitVec.ofNat 10 (0x380 + 4 * ty.code))
  | .cmpNe ty => some (BitVec.ofNat 10 (0x381 + 4 * ty.code))
  | .cmpLt ty => some (BitVec.ofNat 10 (0x382 + 4 * ty.code))
  | .cmpLe ty => some (BitVec.ofNat 10 (0x383 + 4 * ty.code))
  | .anyB32 => some 0x3A4
  | .allB32 => some 0x3A5
  | .selB128 => some 0x3A6
  | .pand => some 0x3A7
  | .por => some 0x3A8
  | .pxor => some 0x3A9
  | .pnot => some 0x3AA
  | .maskB32 => some 0x3AB
  | .maskB16 => some 0x3AC
  | .maskB8 => some 0x3AD
  | .fetch => some 0x3C0
  | .next => some 0x3C1
  | .jump => some 0x3C2
  | .stop => some 0x3C3
  | .rep => some 0x3C4
  | .fence => some 0x3C5
  | .give => some 0x3C8
  | .pass => some 0x3C9
  | .claim => some 0x3CA
  | .take => some 0x3CB
  | .linkNext => some 0x028
  | .linkPrev => some 0x029
  | .linkIdx => some 0x02A
  | .signal => some 0x02B
  | .linkreg => some 0x02C
  | _ => none

/-- One 24-bit slot of a bundle: guard [23:20], source [19:10] and destination [9:0] (R107). -/
structure Slot where
  guard : BitVec 4
  src : BitVec 10
  dst : BitVec 10
  deriving DecidableEq, Repr

/-- The slot of a 24-bit item (R107). -/
def Slot.ofBits (w : BitVec 24) : Slot :=
  ⟨w.extractLsb' 20 4, w.extractLsb' 10 10, w.extractLsb' 0 10⟩

/-- The 24-bit item of a slot (R107). -/
def Slot.bits (x : Slot) : BitVec 24 := x.guard ++ x.src ++ x.dst

/-- An immediate slot performs no move (R107). -/
def Slot.isImm (x : Slot) : Bool := x.guard == 0b1000#4

/-- The 20-bit payload of an immediate slot (R107). -/
def Slot.payload (x : Slot) : BitVec 20 := x.src ++ x.dst

/-- Slot `i` of a bundle occupies bits [24i + 23 : 24i] (R106). -/
def bundleSlot (b : Bundle) (i : Nat) : Slot := Slot.ofBits (b.extractLsb' (24 * i) 24)

/-- The eight slots of a bundle, slot 0 first (R106). -/
def bundleSlots (b : Bundle) : List Slot := (List.range 8).map (bundleSlot b)

/-- The bundle of at most eight slots, the rest null (R106, R107). -/
def packBundle (xs : List Slot) : Bundle :=
  (List.range 8).foldl (fun b i =>
    b ||| ((((xs[i]?).map Slot.bits).getD 0x800000#24).zeroExtend 192 <<< (24 * i))) 0#192

/-- The bytes of a word, lowest address first (R9). -/
def wordBytes (w : W32) : List Byte :=
  [w.extractLsb' 0 8, w.extractLsb' 8 8, w.extractLsb' 16 8, w.extractLsb' 24 8]

/-- The little-endian value of a byte list (R9). -/
def leNat : List Byte → Nat
  | [] => 0
  | b :: bs => b.toNat + 256 * leNat bs

/-- The 24-byte item of a bundle, lowest address first (R106). -/
def bundleBytes (b : Bundle) : List Byte := (List.range 24).map (fun i => b.extractLsb' (8 * i) 8)

/-- Decoding a byte list: the instruction of its first four bytes and the rest; rejected by name otherwise. -/
def decodeBytes (bs : List Byte) : Except DecodeError (Instr × List Byte) :=
  match decodeWord (BitVec.ofNat 32 (leNat (bs.take 4))) with
  | .ok i => .ok (i, bs.drop 4)
  | .error e => .error e

/-- The instruction that the decoder reads from one whose bits are `w`, numbered as spec/opcode_table.json numbers
them: a keeper instruction is one 32-bit word (R225). -/
def decodeTableWord (nbits w : Nat) : Option Instr :=
  if nbits = 32 then
    match decodeBytes (wordBytes (BitVec.ofNat 32 w)) with
    | .ok (i, _) => some i
    | .error _ => none
  else none

end Sys2Proof
end

