-- ==== Sys2Proof/Machine/State.lean ====
section
/-! DEFINITION. The state of one package as plain data, the reasons a step can stop, and the state after reset.
Every structure says in its docstring which rules of spec/ name what it holds; INVENTORY.md lists the fields with
their reset values. Times are values of CYCLE (R202). -/

namespace Sys2Proof.Machine

/-- Sparse data by key, keys rising; an absent key stands for the default its reader names. -/
abbrev SMap (α : Type) := List (Nat × α)

/-- Bytes by address in canonical form: addresses rising, no byte equal to 0, which an unlisted address reads as
(log entry 1). -/
abbrev Mem := List Host.Cell

/-! ## Lamps (R68 to R103) -/

/-- The six lamp states (R69). -/
inductive LampState where | stopped | flashed | running | blocked | draining | faulted
  deriving DecidableEq, Repr

/-- What a BLOCKED lamp waits for (R70). -/
inductive LampWait where | none | claim | take | pass | linkRead | linkWrite | dispatch
  deriving DecidableEq, Repr

/-- A workspace pointer: its block, the loan bit, and whether the block was spilled (R68, R305). -/
structure WsPtr where
  block : Nat
  loan : Bool
  spilled : Bool
  deriving DecidableEq, Repr

/-- The operand latches of one operation (R115): the trigger operand and the operand ports of its bundle, with the
tile, lamp and slot of the move. Also the model's context for a single lamp operation (log entry 3). -/
structure Latch where
  tile : TileId
  lamp : Fin 16
  slot : BitVec 3
  t : V128
  iaA : V128
  ibA : V128
  ibB : V128
  fmA : V128
  fmB : V128
  cvA : V128
  cvB : V128
  cvC : V128
  lsA : V128
  lsB : V128
  prA : V128
  prB : V128
  deriving DecidableEq, Repr

/-- An operation in flight (R76, R84): the clk of its trigger, the clk that its exposed latency names, the clk its result is
there (none until its memory access has been performed), what it delivers to its unit's ports, the flags it raises, and its
access still to perform with the operands it latched and the pieces of it, one a granule or lane, still to be served (R178,
R179), and whether the access has been looked at for a breach (R215). -/
structure InFlight where
  serial : Nat
  unit : Nat
  since : Nat
  due : Nat
  ready : Option Nat
  lat : Nat
  outs : List (Nat × V128)
  flags : W32
  mem : Bool
  access : Option (Instr × Latch)
  left : List Nat
  counted : Bool
  deriving DecidableEq, Repr

/-- An entry of a link FIFO: the value, the first clk it may be read, and the sender's last access triggered before the
sending bundle (R80, R195). -/
structure LinkEntry where
  val : V128
  readableAt : Nat
  sender : Fin 16
  serial : Nat
  deriving DecidableEq, Repr

/-- The fetched-block register (R79): block address [20:8], when its data is there, the data, and the granules of the block
that still wait for their bank. -/
structure Fetched where
  block : BitVec 13
  readyAt : Nat
  code : List Bundle
  todo : List Nat
  deriving DecidableEq, Repr

/-- The repetition state (R85, R191, R303): `pass`, n - 1, len - 1, stride, body position and the captured body. -/
structure Rep where
  pass : Nat
  n1 : Nat
  len1 : Nat
  stride : Nat
  pos : Nat
  body : List Bundle
  deriving DecidableEq, Repr

/-- What a keeper's LWRITE or a delivered `wrmode` of this clk has replaced (R162, R303, R499): the lamp's bundle of the clk
still reads these values. `reg` is a workspace slot with its old value. -/
structure LampOld where
  preds : BitVec 8
  mode : W32
  gen : W32
  linkIdx : BitVec 4
  reg : Option (Nat × V128)
  deriving DecidableEq, Repr

/-- The lamp context (R68) and what its execution holds: the bundles of the current block, direct fills of its banks
with their end (R94, R179), the first clk of its next bundle (R191, R192), the number of accesses triggered, the
accumulator row a drain handler holds (R96, R97), whether its clk are held by a fault or a
halt, in which case they count from 0 (R84, R98, R99, R458), what an LWRITE or a `wrmode` of this clk replaced (R162, R303),
the accesses of other lamps that come before its own, as lamp and serial number (R105), whether a hold lets its accesses
complete (R192), and its state at the start of the clk, which other units see (R499). `flash` names the flash that started it, so
that lock-step partners are known by it; `steps` counts the bundles executed since, and `reps` holds for each repetition begun
since then the count at its `rep` and the bundles by which it lengthens the path (R77, R78). `fence` tells that the bundle just
executed was a `fence`, whose wait the next bundle is still in (R192).
A fill of bank b is entered as b for a load, 4 + b for the keeper, and 8 + b for an LSPILL, which lasts until that command
completes (R305). -/
structure Lamp where
  st : LampState
  wait : LampWait
  drain : Bool
  cause : BitVec 4
  slot : BitVec 3
  block : BitVec 13
  bundle : BitVec 3
  ptrs : Vector (Option WsPtr) 4
  preds : BitVec 8
  ports : Vector V128 32
  flight : List InFlight
  fifo : List LinkEntry
  linkIdx : BitVec 4
  fetched : Option Fetched
  code : List Bundle
  rep : Option Rep
  mode : W32
  flags : W32
  gen : W32
  group : BitVec 2
  fills : List (Nat × Nat)
  nextAt : Nat
  serial : Nat
  row : Option Nat
  paused : Bool
  old : Option LampOld
  after : List (Nat × Nat)
  flush : Bool
  seen : LampState
  flash : Nat
  steps : Nat
  reps : List (Nat × Nat)
  fence : Bool
  deriving DecidableEq, Repr

/-- A lamp as R71 leaves it at launch; the link index register is 0 (log entry 5). -/
def Lamp.reset : Lamp where
  st := .stopped
  wait := .none
  drain := false
  cause := 0
  slot := 0
  block := 0
  bundle := 0
  ptrs := Vector.replicate 4 none
  preds := 1
  ports := Vector.replicate 32 0
  flight := []
  fifo := []
  linkIdx := 0
  fetched := none
  code := []
  rep := none
  mode := 0
  flags := 0
  gen := 0x2545F491
  group := 0
  fills := []
  nextAt := 0
  serial := 0
  row := none
  paused := false
  old := none
  after := []
  flush := false
  seen := .stopped
  flash := 0
  steps := 0
  reps := []
  fence := false

/-- A set of lamp contexts, group settings and handoff queues (R87 to R89, R100): a queue entry is a block and the group
that passed it. -/
structure LampSet where
  lamps : Vector Lamp 16
  floors : Vector Nat 4
  ceils : Vector Nat 4
  handoff : Vector (List (Nat × Nat)) 4
  deriving DecidableEq, Repr

/-- The lamp set at launch (R71). -/
def LampSet.reset : LampSet where
  lamps := Vector.replicate 16 Lamp.reset
  floors := #v[256, 0, 0, 0]
  ceils := Vector.replicate 4 256
  handoff := Vector.replicate 4 []

/-- The kinds of waiting request (R93). -/
inductive ReqKind where | claim | take | pass | dispatch
  deriving DecidableEq, Repr

/-- A waiting request (R93): its lamp, bank, handoff queue and place in the order of issue; `cls` holds, once it has been
classified (R90), whether it is a loan, beside the group that passed the head block for a take, and the loan bits of its two
claims for a dispatch. -/
structure Request where
  kind : ReqKind
  lamp : Fin 16
  bank : Nat
  group : Nat
  stamp : Nat
  cls : Option (Nat × Bool)
  deriving DecidableEq, Repr

/-- A flash in the flash queue (R298). -/
structure FlashEntry where
  addr : Nat
  mask : BitVec 16
  deriving DecidableEq, Repr

/-- An LSTART whose first bundle is still to come (R299): its STOPPED targets, the clk at which its block arrives, and the
granules of the block that still wait for their bank. -/
structure LStart where
  mask : BitVec 16
  at_ : Nat
  todo : List Nat
  deriving DecidableEq, Repr

/-- A freeze asserted by a lamp since a clk, with the lamps it holds (R83). -/
structure Freeze where
  lamp : Fin 16
  held : List (Fin 16)
  since : Nat
  deriving DecidableEq, Repr

/-! ## Keeper, control registers (R198 to R241) -/

/-- The resume record of an abandoned TURN, TURN.W or WINCOMMIT (R419): address, ka, and the ticket of its request if
that had been queued. -/
structure Resume where
  pc : W64
  ka : W64
  ticket : Option Nat
  deriving DecidableEq, Repr

/-- The keeper (R198): registers, PC, level, in_trap, whether it runs, the waiting instruction (R240, R243), the issue
and delivery clk of R229 and R230, the resume record (R419), the end of a PREEMPT deferral (R455), the lamp and
token that a CHECK trap reports (R215), the clk from which its SRAM access waits for a bank (R204), and the instruction
chosen in this clk whose effect on other units comes at its end (R499; log entry 2). -/
structure Keeper where
  k : Vector W64 32
  pc : W64
  station : Bool
  inTrap : Bool
  started : Bool
  halted : Bool
  debugHalt : Bool
  waiting : Option Instr
  ticket : Option Nat
  issueAt : Nat
  regReady : Vector Nat 32
  resume : Option Resume
  preemptBy : Option Nat
  checkInfo : BitVec 14
  preempted : Bool
  sramWait : Option Nat
  late : Option Instr
  deriving DecidableEq, Repr

/-- The keeper before launch (R198; log entry 5 for the PC). -/
def Keeper.reset : Keeper where
  k := Vector.replicate 32 0
  pc := 0
  station := false
  inTrap := false
  started := false
  halted := false
  debugHalt := false
  waiting := none
  ticket := none
  issueAt := 0
  regReady := Vector.replicate 32 0
  resume := none
  preemptBy := none
  checkInfo := 0
  preempted := false
  sramWait := none
  late := none

/-- The control registers of R201 that a tile stores, under their names; CYCLE, TOKLO, TOKHI and ENGSWAP are read from
the state they show. `strap...` are the station copies (R219). -/
structure Ctrl where
  rank : W64
  jobid : W64
  caps : W64
  wingen : W64
  alarm : W64
  trapvec : W64
  trapcause : W64
  trappc : W64
  trapval : W64
  strapcause : W64
  strappc : W64
  strapval : W64
  events : W64
  evmask : W64
  eccstat : W64
  sramlim : W64
  skewbase : W64
  skewpitch : W64
  uxpool : W64
  checkmode : W64
  freezescope : W64
  fmta : W64
  fmtb : W64
  scla : W64
  sclb : W64
  rndmode : W64
  cvtmode : W64
  eagermax : W64
  matchlog : W64
  dom : Vector W64 4
  barto : W64
  arrival : Vector W64 16
  lscmd : W64
  scratch : Vector W64 240
  deriving DecidableEq, Repr

/-- The reset values of the registers' own tables; JOBID before launch and ECCSTAT by log entry 5. -/
def Ctrl.reset (duplex : Bool) : Ctrl where
  rank := 0
  jobid := 0xFFFF
  caps := 0
  wingen := 0
  alarm := 0
  trapvec := 0
  trapcause := 0x1F00
  trappc := 0
  trapval := 0
  strapcause := 0x1F00
  strappc := 0
  strapval := 0
  events := 0
  evmask := 0x000000C000000000
  eccstat := 0
  sramlim := if duplex then 0x1D0000 else 0x1F0000
  skewbase := 0
  skewpitch := 0
  uxpool := if duplex then 0x0000004000190000 else 0x00000040001B0000
  checkmode := 0
  freezescope := 0
  fmta := 5
  fmtb := 5
  scla := 0
  sclb := 0
  rndmode := 0
  cvtmode := 0
  eagermax := 8
  matchlog := 0x0000040000000000
  dom := Vector.replicate 4 0
  barto := 0
  arrival := Vector.replicate 16 0
  lscmd := 0
  scratch := Vector.replicate 240 0

/-! ## Engine commands and the engine context (R208 to R211, R242, R283, R454) -/

/-- A KC command as issued (R242), with the registers captured at issue (R48, R318), its level, its job (R454) and its
place in the issue order. -/
structure KCmd where
  op : BitVec 7
  sub : BitVec 2
  d0 : W64
  d1 : W64
  d2 : W64
  d3 : W64
  tout : Tok
  tin0 : Tok
  tin1 : Tok
  tin2 : Tok
  station : Bool
  job : BitVec 16
  rnd : W64
  cvt : W64
  fmta : W64
  fmtb : W64
  scla : W64
  sclb : W64
  stamp : Nat
  deriving DecidableEq, Repr

/-- The copy command in execution (R283): the clk it completes, the PX8 word count read at start (R290), the input granules
read before its end with the values read, the output granules already written (R213), the reason of a fault found at its start
with whether that is one of accumulator memory (R283, R285), and the blocks that an LSPILL.in has claimed, in spill order
(R305). `reads` and `writes` are the granules whose accesses it has yet to present to their banks, in its order, `wait` those
presented and not yet granted with the clk of it (R204), `acc` the number of clk in which it still reads accumulator memory (R182), `begins` the first
clk of its progress (R283). -/
structure CopyRun where
  cmd : KCmd
  doneAt : Nat
  words : Nat
  early : SMap V128
  wrote : List Nat
  fail : Option (Nat × Bool)
  blocks : List Nat
  reads : List Nat
  writes : List Nat
  wait : List (Nat × Nat)
  acc : Nat
  begins : Nat
  deriving DecidableEq, Repr

/-- An access of a message engine to part of one granule of SRAM that waits for its bank (R204, R206): its address and the clk from
which it waits; the bytes to write there, none for a read; and, for a copy out of the unexpected pool, the address they come
from (R267); `add` tells that they are added to what stands there (R277). -/
structure Piece where
  addr : Nat
  since : Nat
  bytes : List Byte
  src : Option Nat
  add : Bool
  deriving DecidableEq, Repr

/-- What a request slot holds (R306 to R311). -/
inductive MsgKind where | send | ssend | sendTree | recv | recvAdd | recvPx8
  deriving DecidableEq, Repr

/-- The states of a request slot (R254, R273, R274). -/
inductive SlotState where | free | waiting | posted | header | data | ordered | complete
  deriving DecidableEq, Repr

/-- One destination of a send (R274, R309, R486): its stream position, its stage, what a CTS named, the length that an ACK
ahead of the CTS has told (R265), how many bytes of its DATA have gone out, how it ended, and the domain registers whose pending
fields it raised (R386). -/
structure SubSend where
  doms : List Nat
  dst : W32
  seq : W32
  st : SlotState
  eager : Bool
  stub : Bool
  cts : Option Nat
  acked : Option Nat
  sentData : Bool
  sentTo : Nat
  status : BitVec 4
  dlv : Nat
  retryAt : Option Nat
  retryWait : Nat
  due : Bool
  deriving DecidableEq, Repr

/-- A request slot with its descriptor, status record and progress (R253, R254, R273, R274). `got` lists the byte ranges
received, `stash` keeps received bytes for a consumer outside SRAM (a server's receive, a PX8 stream), `src` and `seq`
the matched message, `early` the granules that a send has read before its start (R213). `todo` are the accesses to the buffer that
are still to be granted: granules that a send has yet to read, bytes that a receive has yet to write. `units` are the pool units of
a message matched from the pool, which it holds with its header entry until its copy is complete (R267). -/
structure MSlot where
  kind : MsgKind
  st : SlotState
  status : BitVec 4
  peer : W32
  anySrc : Bool
  tag : BitVec 24
  anyTag : Bool
  group : BitVec 12
  buf : Nat
  len : Nat
  d3 : W64
  tout : Tok
  tin0 : Tok
  tin1 : Tok
  tin2 : Tok
  station : Bool
  job : BitVec 16
  stamp : Nat
  recPeer : W32
  recTag : BitVec 24
  msgLen : Nat
  dlvLen : Nat
  subs : List SubSend
  src : W32
  seq : W32
  mkind : PktKind
  got : List (Nat × Nat)
  stash : Mem
  ackEarly : Bool
  tree : List (W64 × W64)
  payload : List Byte
  early : SMap V128
  todo : List Piece
  units : Option (List Nat)
  deriving DecidableEq, Repr

/-- A header-store record (R267, R275): its header, the pool units its payload occupies, the writes of that payload to the pool
that are still to be granted, and, at a server tile, whose pool lies outside SRAM and HBM (R422), the payload. -/
structure HdrRec where
  pkt : Packet
  stub : Bool
  units : List Nat
  payload : List Byte
  todo : List Piece
  deriving DecidableEq, Repr

/-- The sender's state of a stream (R256): the next sequence number, and how many of its messages are not yet
acknowledged. -/
structure SendStream where
  peer : W32
  group : BitVec 12
  job : BitVec 16
  next : W32
  open_ : Nat
  deriving DecidableEq, Repr

/-- The receiver's state of a stream (R258 to R260, R269): the next header to offer, headers held ahead of it, whether a
header stands refused, and the receives of the stream matched and not yet complete, in send order. -/
structure RecvStream where
  peer : W32
  group : BitVec 12
  job : BitVec 16
  next : W32
  held : List Packet
  refused : Bool
  matched : List (W32 × Nat)
  deriving DecidableEq, Repr

/-- A message being reassembled from its packets by offset (R371, R375). -/
structure Reasm where
  pkt : Packet
  got : List (Nat × Nat)
  bytes : Mem
  deriving DecidableEq, Repr

/-- A DATA packet of which the local output has passed on the head and not yet the tail (R371, R374): the number of its cells, its
header, the payload bytes that have come, and those still to come. -/
structure Landing where
  pid : Nat
  pkt : Packet
  got : Nat
  left : Nat
  deriving DecidableEq, Repr

/-- The part of a message engine that jobs share (R256, R267, R454): header store, stream tables, arriving and leaving
packets, reassembly, the quiesced flag (R313), entries of the match log still to be written (R280), and DATA packets on their way
through the local output, whose cells are written as they come (R272, R371). -/
structure MsgShared where
  hdrs : List HdrRec
  sends : List SendStream
  recvs : List RecvStream
  inbox : List (Nat × Packet)
  outq : List (Nat × Packet)
  reasm : List Reasm
  quiesced : Bool
  logs : List Piece
  landing : List Landing
  done : List (W64 × W64)
  deriving DecidableEq, Repr

def MsgShared.reset : MsgShared := ⟨[], [], [], [], [], [], false, [], [], []⟩

/-- The engine context of one job (R454): token counts, lens status words, request slots (their stamps hold the posting
order, their destinations what control packets recorded), pool occupancy in units of 64 bytes, unstarted entries of the
copy, lens and flash queues, SCAN and WINSET commands that wait for their input tokens (R393, R436), the fault words, and the pending-byte
counters of its sends (R386). -/
structure EngineCtx where
  tok : Vector Nat 64
  lensStatus : Vector W64 64
  lensFault : W64
  copyFault : W64
  slots : SMap MSlot
  pool : List Nat
  copyQ : List KCmd
  lensQ : List KCmd
  flashQ : List FlashEntry
  scanQ : List KCmd
  pending : Vector Nat 4
  deriving DecidableEq, Repr

def EngineCtx.reset : EngineCtx where
  tok := Vector.replicate 64 0
  lensStatus := Vector.replicate 64 0
  lensFault := 0
  copyFault := 0
  slots := []
  pool := []
  copyQ := []
  lensQ := []
  flashQ := []
  scanQ := []
  pending := Vector.replicate 4 0

/-! ## The tile -/

/-- A tile's place in a duplex pair (R221): the leader's record stands for both tiles of the pair. -/
inductive Duplex where | solo | leader | follower
  deriving DecidableEq, Repr

/-- The checkpoint of a duplex pair (R222): the register checkpoint and the undo log, SRAM granules and workspace slots
with their old values, as open data (log entry 9). -/
structure Checkpoint where
  keeper : Keeper
  ctrl : Ctrl
  lamps : LampSet
  free : List Nat
  granules : List (Nat × V128)
  slots : List (Nat × V128)
  deriving DecidableEq, Repr

/-- A compute tile: keeper, control registers, tokens, SRAM, workspace store, lamp array, engines. `banksUsed` are the banks
that have granted an access in clk `bankClk`, and `codeRead` the granules that lamps read there as code (R79, R204). `accClk` is one
more than the last clk in which the accumulator-row port served an access (R182); `passedBy`
names for a block the lamp that passed it last and its serial number then (R105); `fresh` lists the blocks given or passed in
this clk, a given one with its group, which the lamps' requests meet from the next clk on (R499); `tokSeen` and `stokSeen` are the set
tokens of the two levels at the start of the clk, which the engines see (R209, R499). `failing` are the copy commands that
failed a check at issue, each with its reason, whether the fault is one of accumulator memory, and the clk in which it completes
(R283); `imageSent` is how many children have received its image (R444); `bad` and `badWs` are the granules of SRAM and the register slots with an
uncorrectable error (R224); `breachClk` is one more than the clk of the last lamp breach
that the keeper is to report (R215). `engClk` is one more than the last clk in which the engines have had their turn at the banks
(R204), and `slow` lists the request slots whose engine makes no access of its own in this clk (R213). `parkSeen`, `drainSeen`,
`logSeen` and `checkSeen` are what units see of the start of the clk (R499): whether a park keeps job commands from starting
(R455), whether a DRAIN keeps the next copy command from starting (R328), MATCHLOG and CHECKMODE (R237); `allocNew` is the ACC.ALLOC
issued in this clk. -/
structure Tile where
  keeper : Keeper
  ctrl : Ctrl
  sram : Mem
  bankClk : Nat
  banksUsed : List Nat
  codeRead : List Nat
  ws : SMap V128
  act : LampSet
  saved : LampSet
  free : List Nat
  loanQ : List Request
  takeQ : List Request
  passQ : List Request
  lstarts : List LStart
  signals : Vector W32 16
  freezes : List Freeze
  lswapUntil : Nat
  lampsStopped : Bool
  accClk : Nat
  passedBy : SMap (Nat × Nat)
  fresh : List (Nat × Option Nat)
  tokSeen : W64
  stokSeen : W64
  eng : EngineCtx
  parked : Option (BitVec 16 × EngineCtx)
  stok : Vector Nat 64
  stSlots : SMap MSlot
  stCopy : Option KCmd
  stLens : Option KCmd
  stFlash : Option FlashEntry
  copyRun : Option CopyRun
  failing : List (KCmd × Nat × Bool × Nat)
  bad : List Nat
  badWs : List Nat
  breachClk : Nat
  engClk : Nat
  slow : List Nat
  parkSeen : Bool
  drainSeen : Bool
  logSeen : W64
  checkSeen : W64
  allocNew : Option Nat
  msg : MsgShared
  duplex : Duplex
  ckpt : Option Checkpoint
  mismatch : Bool
  imageDone : Bool
  imageSent : Nat
  entry : Nat
  image : List Byte
  cmdStamp : Nat
  deriving DecidableEq, Repr

/-- A tile before its first launch; memory and workspace by log entry 1. -/
def Tile.reset : Tile where
  keeper := Keeper.reset
  ctrl := Ctrl.reset false
  sram := []
  bankClk := 0
  banksUsed := []
  codeRead := []
  ws := []
  act := LampSet.reset
  saved := LampSet.reset
  free := List.range 256
  loanQ := []
  takeQ := []
  passQ := []
  lstarts := []
  signals := Vector.replicate 16 0
  freezes := []
  lswapUntil := 0
  lampsStopped := false
  accClk := 0
  passedBy := []
  fresh := []
  tokSeen := BitVec.allOnes 64
  stokSeen := BitVec.allOnes 64
  eng := EngineCtx.reset
  parked := none
  stok := Vector.replicate 64 0
  stSlots := []
  stCopy := none
  stLens := none
  stFlash := none
  copyRun := none
  failing := []
  bad := []
  badWs := []
  breachClk := 0
  engClk := 0
  slow := []
  parkSeen := false
  drainSeen := false
  logSeen := 0x0000040000000000
  checkSeen := 0
  allocNew := none
  msg := MsgShared.reset
  duplex := .solo
  ckpt := none
  mismatch := false
  imageDone := false
  imageSent := 0
  entry := 0
  image := []
  cmdStamp := 0

/-! ## The lens and accumulator memory (R314 to R338) -/

/-- The state of an accumulator bank (R324, R347, R356). -/
inductive BankState where | free | reserved | sum | rank
  deriving DecidableEq, Repr

/-- An accumulator bank: state, position of its tile, list length limit, owning lamp group (R324, R326). -/
structure Bank where
  st : BankState
  tile : Nat
  k : Nat
  owner : Option (BitVec 2)
  deriving DecidableEq, Repr

def Bank.reset : Bank := ⟨.free, 0, 0, none⟩

/-- A command slot of the lens (R319): the command and the tile position it came from, its load end, the start of its
computation, the next block step and the clk the current step ends, the counts of the status word, the operand bytes as
read during the load (R320), the granules read before its end (R213), the operand granules whose accesses the load has yet to
present to their banks, and those presented and not yet granted with the clk of it (R204). -/
structure LensSlot where
  tile : Nat
  cmd : KCmd
  loadFrom : Option Nat
  loadEnd : Option Nat
  computeFrom : Option Nat
  step : Nat
  stepEnd : Option Nat
  done : Nat
  skipped : Nat
  overflow : Bool
  cap : Mem
  early : SMap V128
  todo : List Nat
  wait : List (Nat × Nat)
  deriving DecidableEq, Repr

/-- A bank command that the sequencer has accepted (R323): whether it has been checked, its progress in row operations,
counts, and rows dispatched and not yet released for a DRAIN. -/
structure BankCmd where
  tile : Nat
  cmd : KCmd
  checked : Bool
  pos : Nat
  sub : Nat
  done : Nat
  out : List Nat
  claim : Option (Fin 16)
  stopped : Option Nat
  deriving DecidableEq, Repr

/-- A lens with its accumulator memory: slots, arbiter, accepted bank commands, banks, words (row id times 64 plus word),
held rows with the tile position, lamp and clear flag (R319 to R328), the rows with an uncorrectable error (R224), and the bank
command, by tile position and place of issue, whose row operation falls in this clk (R353, R499). -/
structure Lens where
  slots : Vector (Option LensSlot) 2
  ptr : Nat
  credits : Vector Nat 8
  weights : Vector Nat 8
  accepted : List BankCmd
  banks : SMap Bank
  words : SMap W32
  held : List (Nat × Nat × Fin 16)
  freeAt : Vector Nat 2
  rowOpAt : Nat
  bad : List Nat
  turn : Option (Nat × Nat)
  deriving DecidableEq, Repr

def Lens.reset : Lens where
  slots := Vector.replicate 2 none
  ptr := 0
  credits := Vector.replicate 8 1
  weights := Vector.replicate 8 1
  accepted := []
  banks := []
  words := []
  held := []
  freeAt := Vector.replicate 2 0
  rowOpAt := 0
  bad := []
  turn := none

/-! ## Mesh and links (R371 to R421) -/

/-- A cell of a packet (R371): its 64 bytes of content with the check codes over each 64 bits of them, its channel, head and
tail marks. `at_` is the clk at which it can next compete (R374). The packet rides with its head and its tail cell, and `pid`
tells the cells of one packet from those of another in one channel. -/
structure Cell where
  vc : Fin 4
  head : Bool
  tail : Bool
  bytes : List Byte
  check : List (BitVec 8)
  pkt : Option Packet
  pid : Nat
  at_ : Nat
  deriving DecidableEq, Repr

/-- The head at one input: how long it has waited there, its age counter and its promotion (R379, R380). -/
structure HeadAge where
  since : Nat
  age : Nat
  promoted : Option Nat
  deriving DecidableEq, Repr

/-- The arbitration state of one output: the packet at an input that holds each channel and the round-robin pointer of each
(R378), the slots used in the current clk by tier, and the place in the run of 3 and 1 (R377). -/
structure OutPort where
  lock : Vector (Option Nat) 4
  rr : Vector Nat 4
  clk : Nat
  used : Nat
  vc0 : Nat
  tier2 : Nat
  run : Nat
  deriving DecidableEq, Repr

def OutPort.reset : OutPort := ⟨Vector.replicate 4 none, Vector.replicate 4 0, 0, 0, 0, 0, 0⟩

/-- A router, or the link end on an S-die (R374, R412): input buffers by input port times 4 plus channel, cells in the next
buffers by output port times 4 plus channel, arbitration by output, credits on their way back with their clk, ages of the
heads at the inputs, the way a packet at an input goes until its tail leaves (output, plus 32 times the channel, plus 128
times the exit router of a link), the escape counter (R380), whether it has stopped (R399), cells of packets that enter
here, by input port times 4 plus channel, the cells that each local input has taken in clk `fedClk` (R374, R500), how many
packets have entered here, and how many single-bit errors were corrected (R399). The inputs of an S-die from its link are
numbered 16 plus the edge router that sent the cell; a packet at an input is named by its buffer plus 128 times its number. -/
structure Router where
  inBufs : SMap (List Cell)
  used : SMap Nat
  outs : SMap OutPort
  returns : List (Nat × Nat)
  heads : SMap HeadAge
  route : SMap Nat
  escapes : Nat
  stopped : Bool
  inject : SMap (List Cell)
  fedClk : Nat
  fed : SMap Nat
  entered : Nat
  corrected : Nat
  deriving DecidableEq, Repr

def Router.reset : Router := ⟨[], [], [], [], [], [], 0, false, [], 0, [], 0, 0⟩

/-- A flit that a link end has sent or holds for replay, with its check sum (R409, R410). -/
structure Flit where
  seq : BitVec 12
  cell : Cell
  crc : BitVec 16
  exit : Nat
  tries : Nat
  arriveAt : Nat
  deriving DecidableEq, Repr

/-- One direction of a link (R410, R411, R420): replay buffer, flits in flight, receiver state, credits, counters, what
the fixed lanes carry back, and the arbitration of its flit slots at a C-die, where 16 routers face the link (R412). -/
structure LinkDir where
  nextSeq : BitVec 12
  replay : List Flit
  flight : List Flit
  expected : BitVec 12
  discarding : Bool
  wantReplay : Option (BitVec 12)
  accepted : Nat
  lastAck : Nat
  ackTo : Option (BitVec 12)
  credits : Vector Nat 4
  freed : Vector Nat 4
  sent : Nat
  resent : Nat
  out : OutPort
  deriving DecidableEq, Repr

def LinkDir.reset : LinkDir where
  nextSeq := 0
  replay := []
  flight := []
  expected := 0
  discarding := false
  wantReplay := none
  accepted := 0
  lastAck := 0
  ackTo := none
  credits := #v[64, 128, 1024, 64]
  freed := Vector.replicate 4 0
  sent := 0
  resent := 0
  out := OutPort.reset

/-- The states of a link (R420). -/
inductive LinkState where | steady | dwell | dead | deferred | down
  deriving DecidableEq, Repr

/-- A turn request (R415): the sector asked, its ticket for TURN.W, and its arrival. -/
structure TurnReq where
  sector : Nat
  ticket : Nat
  arrived : Nat
  deriving DecidableEq, Repr

/-- A package link (R407 to R421). `served` keeps, by ticket, the turn count and sector after service (R419). -/
structure Link where
  sector : Nat
  turns : Nat
  st : LinkState
  qa : List TurnReq
  qb : List TurnReq
  serving : Option TurnReq
  lastEnd : Option Nat
  deadEnd : Nat
  served : SMap (Nat × Nat)
  ab : LinkDir
  ba : LinkDir
  deriving DecidableEq, Repr

def Link.reset : Link where
  sector := 8
  turns := 0
  st := .steady
  qa := []
  qb := []
  serving := none
  lastEnd := none
  deadEnd := 0
  served := []
  ab := LinkDir.reset
  ba := LinkDir.reset

/-! ## Beacons (R382 to R398) -/

/-- A member's arrival at an instance of a collective (R388, R396): member, register, clk, sampled time-out, window, and
what it contributes; for SCAN where its results go. -/
structure Arrival where
  tile : TileId
  reg : Nat
  clk : Nat
  limit : Nat
  window : Nat
  values : List W32
  dst : Nat
  tout : Tok
  station : Bool
  deriving DecidableEq, Repr

/-- An announcement (R391). -/
structure Announce where
  window : Nat
  tile : TileId
  word : W32
  deriving DecidableEq, Repr

/-- A BARX request in its window (R398). -/
structure BarxReq where
  window : Nat
  tile : TileId
  reg : Nat
  epoch : BitVec 16
  deriving DecidableEq, Repr

/-- What a beacon instruction of a tile has contributed and its result (R388, R389): class (0 collective, 1 announcement,
2 BARX), kind, operands and window, the result word once it is there and the clk from which it is delivered. Kept until
the keeper takes it, so that a wait that a trap abandoned is taken up again. `phase` tells that the toggle of the phase bit
is still owed to a parked tile (R382, R457). -/
structure BeaconPart where
  tile : TileId
  cls : Nat
  kind : Nat
  epoch : BitVec 16
  value : W32
  buf : W64
  window : Nat
  result : Option W64
  readyAt : Nat
  phase : Bool
  deriving DecidableEq, Repr

/-- Writes of a beacon result that a parked tile is still owed (R457): an address and its bytes. -/
structure OwedWrite where
  tile : TileId
  addr : Nat
  bytes : List Byte
  deriving DecidableEq, Repr

/-- A domain with its collective state (R384): its shape as the register value's shape fields, the die or cluster it is
on, its job; the instance's kind (0 none, 1 BAR, 2 SCAN, from 3 VOTE by operation), arrivals and commit; whether it is
broken, with the clk at which its time-outs complete (R396); announcements, BARX requests and the last window each tile
contributed in (R385); the arrival record of the clk in which it last broke, and such records that parked tiles are still owed
(R397, R457). -/
structure Domain where
  job : BitVec 16
  reg : Nat
  shape : W64
  place : Nat
  bsp : Bool
  epoch : BitVec 16
  kind : Nat
  arrivals : List Arrival
  commit : Option Nat
  broken : Bool
  toDue : Option Nat
  anns : List Announce
  barx : List BarxReq
  contrib : List (TileId × Nat)
  parts : List BeaconPart
  owed : List OwedWrite
  record : List W64
  owedMasks : List (TileId × List W64)
  deriving DecidableEq, Repr

/-! ## Server tiles and windows (R422 to R439) -/

/-- A request at a server tile (R424, R429): its source, job, descriptor bytes, the receive that collects its data, the window
table generation it is served under, the receive that still collects the descriptor itself, and whether its reply fields and
opcode have been looked at (R426). -/
structure ServReq where
  src : W32
  job : BitVec 16
  bytes : List Byte
  slot : Option Nat
  gen : BitVec 16
  recv : Option Nat
  checked : Bool
  deriving DecidableEq, Repr

/-- A server tile: its message engine, the queued and the active requests (R422, R429). -/
structure Server where
  eng : EngineCtx
  msg : MsgShared
  queued : List ServReq
  active : List ServReq
  deriving DecidableEq, Repr

def Server.reset : Server := ⟨EngineCtx.reset, MsgShared.reset, [], []⟩

/-! ## The lightship, jobs and ports (R440 to R490) -/

/-- The states of a job (R450). -/
inductive JobState where | loading | running | parked | ended
  deriving DecidableEq, Repr

/-- A partition rectangle in clusters (R447). -/
structure Rect where
  die : Nat
  cx0 : Nat
  cy0 : Nat
  cx1 : Nat
  cy1 : Nat
  deriving DecidableEq, Repr

/-- A placed tile: its rank, role, duplex flag and lens arbiter weight (R441, R442). -/
structure Placed where
  rank : Nat
  role : Nat
  duplex : Bool
  weight : Nat
  deriving DecidableEq, Repr

/-- A WINSET on its way into the staged table (R436). -/
structure WinsetReq where
  tile : TileId
  window : BitVec 6
  entry : W64
  tout : Tok
  station : Bool
  arrived : Nat
  deriving DecidableEq, Repr

/-- A WINCOMMIT request (R437). -/
structure CommitReq where
  tile : TileId
  ticket : Nat
  arrived : Nat
  deriving DecidableEq, Repr

/-- A resident job (R441 to R451) with its windows (R433: the 32 servers hold one copy each, all equal), the WINSET and
WINCOMMIT queues (R436, R437), done words received by boot-tree parent and the tiles whose words have been sent (R445),
tiles that left the job (R276), its save window (R452), the tiles still to park or restore, and whether it was parked
to move its windows (R462). -/
structure Job where
  id : BitVec 16
  prio : Nat
  atPhase : Bool
  st : JobState
  host : W32
  tag : BitVec 24
  rects : List Rect
  placed : List Placed
  boot : List (Nat × List Nat)
  words : List (Nat × Nat × W64)
  sent : List Nat
  result : Option W64
  allot : List (Nat × Nat × Nat)
  cur : List W64
  old : Option (List W64)
  staged : List W64
  gen : BitVec 16
  winsets : List WinsetReq
  commits : List CommitReq
  announced : Option Nat
  served : List (Nat × BitVec 16)
  left : List Nat
  saveBase : Option (Nat × Nat)
  saveLost : Bool
  toAck : List Nat
  restore : Bool
  deriving DecidableEq, Repr

/-- The states of a die (R462). -/
inductive DieState where | online | drain | offline
  deriving DecidableEq, Repr

/-- The lock states of a port (R487, R489). -/
inductive LockState where | unlocked | locked | run | error
  deriving DecidableEq, Repr

/-- A delivery context of a pair of packages: the number of the next packet sent, the first number that has not come, and those
beyond it that have (R479; log entry 67). -/
structure PdsCtx where
  sent : Nat
  next : Nat
  ahead : List Nat
  deriving DecidableEq, Repr

def PdsCtx.reset : PdsCtx := ⟨0, 0, []⟩

/-- A fabric port (0 to 7) or host port (8, 9): lock state, peer, configuration, the reason of a failed bring-up, frames
discarded in all and in a row, the counter that the next frame received must reach and that of the next frame sent, whether
it holds keys and the counter at the last KEY_UPDATE, packets at the bridge, and frames sent that the peer has not acknowledged
(R479, R487 to R489); the arbitration of its classes, the clk at which its wire is free (R478, R480), what it has to acknowledge,
and the last frame that only acknowledged (R479). -/
structure PortSt where
  st : LockState
  peer : BitVec 16
  config : Option PortConfig
  reason : Nat
  tagFail : Nat
  consec : Nat
  highest : Nat
  txCount : Nat
  keys : Bool
  keyAt : Nat
  queue : List Packet
  wire : List Frame
  out : OutPort
  freeAt : Nat
  owed : List (Nat × Nat)
  bare : Option Frame
  deriving DecidableEq, Repr

def PortSt.reset : PortSt := ⟨.unlocked, 0xFFFF, none, 0, 0, 0, 0, 0, false, 0, [], [], OutPort.reset, 0, [], none⟩

/-- A management request as it came (R446): the host, its reply tag, the bytes, and the receive that still collects them. -/
structure MgmtReq where
  host : W32
  tag : BitVec 24
  bytes : List Byte
  recv : Option Nat
  deriving DecidableEq, Repr

/-- What a management request asks (R446). -/
inductive MgmtOp where
  | load (payload : List Byte)
  | preempt
  | resume
  | kill
  | status
  | dread (addr : W64) (count : Nat)
  | dwrite (addr : W64) (words : List W64)
  | dhalt (unit : BitVec 16)
  | dresume (unit : BitVec 16)
  | tilemap (req : TileMapReq)
  | offline (die : BitVec 8)
  | online (die : BitVec 8)
  deriving DecidableEq, Repr

/-- A management request: the host, its reply tag, the job it names, what it asks (R446). -/
structure MgmtCmd where
  host : W32
  tag : BitVec 24
  job : BitVec 16
  op : MgmtOp
  deriving DecidableEq, Repr

/-- What the lightship still has to finish: a request that waits for its turn or for jobs to park (R446, R451), or the work on
the die of a failed router or of a fault (R460, R463), or to let tiles go on that a failed router has halted (R399, R460). -/
inductive Duty where
  | request (c : MgmtCmd)
  | router (r : TileId)
  | die (d : Fin 4)
  | release (rs : List Nat)
  deriving DecidableEq, Repr

/-- The lightship (R440 to R467, R487 to R490): resident jobs, records of ended ones, tile map, die states, duty and power
samples, the dies at 95 degrees or more, the dies on their way to OFFLINE, firmware with its versions, its management list,
node number and pod size, its message engine, tickets given, what was reported to it, the requests that wait for a park, and
the management requests in match order (R446). -/
structure Lightship where
  jobs : Vector (Option Job) 4
  tileMap : List (Nat × Nat)
  dies : Vector DieState 4
  duty : Nat
  samples : List Nat
  hot : List Nat
  leaving : List Nat
  fwVersion : Nat
  stVersion : Nat
  firmware : List Byte
  stFirmware : List Byte
  certVersion : Nat
  certificate : List Byte
  badReplies : Nat
  hosts : List W32
  node : BitVec 16
  cn : Nat
  dn : Nat
  eng : EngineCtx
  msg : MsgShared
  tickets : Nat
  reports : List (Nat × Nat)
  deferred : List Duty
  requests : List MgmtReq
  podMsgs : List (W32 × List Byte)
  deriving DecidableEq, Repr

def Lightship.reset : Lightship where
  jobs := Vector.replicate 4 none
  tileMap := []
  dies := Vector.replicate 4 .online
  duty := 16
  samples := []
  hot := []
  leaving := []
  fwVersion := 0
  stVersion := 0
  firmware := []
  stFirmware := []
  certVersion := 0
  certificate := []
  badReplies := 0
  hosts := []
  node := 0
  cn := 1
  dn := 1
  eng := EngineCtx.reset
  msg := MsgShared.reset
  tickets := 0
  reports := []
  deferred := []
  requests := []
  podMsgs := []

/-- The instruction register of the board-test port (R465). -/
inductive TapIr where | bypass | samplePreload | extest | idcode
  deriving DecidableEq, Repr

/-- The board-test port (R465): instruction, bypass and boundary registers, the bits last shifted out, and how often it has
captured (log entry 6). -/
structure Tap where
  ir : TapIr
  bypass : Bool
  boundary : List Bool
  driven : List Bool
  tdo : List Bool
  captures : Nat
  deriving DecidableEq, Repr

def Tap.reset : Tap := ⟨.idcode, false, [], [], [], 0⟩

/-! ## The package -/

/-- What the results of a job may become after it has broken an obligation for which no outcome is stated (R1; log entry 8): a granule of
SRAM, a keeper register, a register slot of a workspace block, a word of accumulator memory. -/
inductive Spoil where
  | sram (a : Nat) (v : V128)
  | reg (k : BitVec 5) (v : W64)
  | slot (n : Nat) (v : V128)
  | acc (row word : Nat) (v : W32)
  deriving DecidableEq, Repr

/-- What moves next (log entry 2): a whole step; an instruction of a tile's keeper; the keeper's choice of its instruction on
the state at the start of the clk (R499); the passing of clk; or what the physical world does: a soft error found in structure
0 SRAM, 1 workspace or 2 accumulator memory, at a granule address, a register slot or a row (R223, R224; log entry 12), a compare mismatch in a duplex pair (R222), and the
times that the spec leaves open (log entry 7): a block step of the tile's lens that keeps its accumulator-row port busy (R182), a
message command whose engine makes no access in this clk, and the time at
which a copy command, a lens load or a send reads, and a copy command writes, a granule (R213); the turn of the engines of a tile at
the banks (R204); the row operation of a clk (R353); a request at a server tile that goes before others (R428); the service of the next
management request (R446); the built-in station handler (R456, R458; log entry 16); a single-bit error in a router's cell, which is corrected and counted, and a router that fails its
self-check (R399); and a result of a job that has broken an obligation for which no outcome is
stated (R1; log entry 8). -/
inductive Sched where
  | event (i : Instr)
  | keeper (r : TileId)
  | choose (r : TileId)
  | clk (n : Nat)
  | softError (r : TileId) (structure_ : Fin 3) (a : Nat) (uncorrectable : Bool)
  | mismatch (r : TileId)
  | accPort (r : TileId)
  | slowMsg (r : TileId) (n : Nat)
  | banks (r : TileId)
  | rowTurn (c : LensId)
  | hurry (v : Fin 32) (i : Nat)
  | copyRead (r : TileId) (a : Nat)
  | copyWrite (r : TileId) (a : Nat)
  | lensRead (c : LensId) (i : Fin 2) (a : Nat)
  | sendRead (r : TileId) (n : Nat) (a : Nat)
  | serve
  | station (r : TileId)
  | cellError (n : NetNode)
  | selfCheck (r : TileId)
  | spoil (r : TileId) (x : Spoil)
  deriving DecidableEq, Repr

/-- The state of the package. `agenda`, `phase`, `focus`, `bundle` and `freeCtr` are the model's own (log entries 2 to 4). -/
structure State where
  cycle : Nat
  tiles : SMap Tile
  lenses : SMap Lens
  servers : SMap Server
  routers : SMap Router
  links : SMap Link
  hbm : Mem
  domains : List Domain
  ls : Lightship
  ports : Vector PortSt 10
  pds : SMap PdsCtx
  ordered : Bool
  tap : Tap
  agenda : List Sched
  phase : Nat
  focus : TileId
  bundle : Latch
  freeCtr : Nat
  deriving DecidableEq, Repr

/-- The operand latches before any bundle (log entry 3). -/
def Latch.reset : Latch := ⟨0, 0, 0, 0, 0, 0, 0, 0, 0, 0, 0, 0, 0, 0, 0, 0⟩

/-- The package right after package reset: CYCLE 0 (R202), links trained with sector 8 (R414), ports UNLOCKED and mode
ORDERED (R489), no job resident, tiles not started; every other value as INVENTORY.md lists it. -/
def State.reset : State where
  cycle := 0
  tiles := []
  lenses := []
  servers := []
  routers := []
  links := []
  hbm := []
  domains := []
  ls := Lightship.reset
  ports := Vector.replicate 10 PortSt.reset
  pds := []
  ordered := true
  tap := Tap.reset
  agenda := []
  phase := 0
  focus := 0
  bundle := Latch.reset
  freeCtr := 0

/-- Why a step stops with a fault. -/
inductive Fault where
  /-- A message event names a unit that R248 leaves unassigned. Raised by the message events. Safe: the device has no such
  unit, so the term stands for nothing it does. -/
  | noSuchUnit
  deriving DecidableEq, Repr

/-- Why a step is refused. -/
inductive Refusal where
  /-- The instruction has no meaning in the model. Raised by the arms of `exec` alone. Safe: nothing can be proved of it. -/
  | notModelled (mnemonic : String)
  deriving DecidableEq, Repr

/-- The outcome of a step or of an instruction. -/
abbrev Out := Host.Outcome State Fault Refusal

end Sys2Proof.Machine
end

