-- ==== Sys2Proof/Machine/Bits.lean ====
section
/-! DEFINITION. Bit fields, lanes, byte order and plain list helpers. -/

namespace Sys2Proof.Machine

/-- The `n` bits of `x` from bit `lo` up, as a number. -/
def bitsN (x lo n : Nat) : Nat := x / 2 ^ lo % 2 ^ n

/-- The `n` bits of a 64-bit word from bit `lo` up, as a number. -/
def fld (w : W64) (lo n : Nat) : Nat := (w >>> lo).toNat % 2 ^ n

/-- Bit `i` of a 64-bit word. -/
def bit (w : W64) (i : Nat) : Bool := w.getLsbD i

/-- A word with one bit. -/
def oneBit (i : Nat) : W64 := 1#64 <<< i

/-- A word with bit `i` set or cleared. -/
def putBit (w : W64) (i : Nat) (b : Bool) : W64 := if b then w ||| oneBit i else w &&& ~~~ oneBit i

/-- A word with the `n` bits from `lo` up replaced. -/
def putFld (w : W64) (lo n v : Nat) : W64 :=
  (w &&& ~~~ (BitVec.ofNat 64 ((2 ^ n - 1) * 2 ^ lo))) ||| BitVec.ofNat 64 (v % 2 ^ n * 2 ^ lo)

/-- The mask of the `n` bits from `lo` up. -/
def maskBits (lo n : Nat) : W64 := BitVec.ofNat 64 ((2 ^ n - 1) * 2 ^ lo)

/-- A number rounded up to a multiple of `m`, divided by `m`. -/
def ceilDiv (a m : Nat) : Nat := (a + m - 1) / m

/-- A number rounded up to a multiple of `m`. -/
def roundUp (a m : Nat) : Nat := ceilDiv a m * m

/-- 1 for true. -/
def ofBool (b : Bool) : Nat := if b then 1 else 0

/-- The 64-bit value 1 or 0. -/
def boolW (b : Bool) : W64 := if b then 1 else 0

/-- Lane `i` of width `n` of a 128-bit value, lane 0 lowest (R9). -/
def lane (v : V128) (n i : Nat) : BitVec n := v.extractLsb' (n * i) n

/-- The 128-bit value of a list of lanes of width `n`, lane 0 first (R9). -/
def packLanes (n : Nat) : List (BitVec n) → V128
  | [] => 0
  | x :: xs => (packLanes n xs <<< n) ||| x.zeroExtend 128

/-- Lane-wise unary operation. -/
def mapLanes (n : Nat) (f : BitVec n → BitVec n) (x : V128) : V128 :=
  packLanes n ((List.range (128 / n)).map (fun i => f (lane x n i)))

/-- Lane-wise binary operation. -/
def zipLanes (n : Nat) (f : BitVec n → BitVec n → BitVec n) (x y : V128) : V128 :=
  packLanes n ((List.range (128 / n)).map (fun i => f (lane x n i) (lane y n i)))

/-- One 32-bit item in all four lanes (R109). -/
def bcast32 (x : W32) : V128 := packLanes 32 [x, x, x, x]

/-- The `n` little-endian bytes of a number (R9). -/
def leBytes : Nat → Nat → List Byte
  | 0, _ => []
  | n + 1, x => BitVec.ofNat 8 (x % 256) :: leBytes n (x / 256)

/-- The `n` bytes from position `lo` of a byte string, absent bytes 0. -/
def sliceB (bs : List Byte) (lo n : Nat) : List Byte :=
  (bs.drop lo).take n ++ List.replicate (n - ((bs.drop lo).take n).length) 0

/-- The little-endian number of `n` bytes at position `lo`. -/
def leAt (bs : List Byte) (lo n : Nat) : Nat := leNat (sliceB bs lo n)

/-- The two's-complement value of the low `n` bits of a number. -/
def signedN (n x : Nat) : Int :=
  let m := x % 2 ^ n
  if 2 * m < 2 ^ n then (m : Int) else (m : Int) - (2 ^ n : Nat)

/-- Replace the element at a position. -/
def listSet {α : Type} (xs : List α) (i : Nat) (x : α) : List α := xs.set i x

/-- Read a vector at a number, with a default beyond its end. -/
def vget {α : Type} {n : Nat} (v : Vector α n) (i : Nat) (d : α) : α := if h : i < n then v[i] else d

/-- Write a vector at a number; no change beyond its end. -/
def vset {α : Type} {n : Nat} (v : Vector α n) (i : Nat) (x : α) : Vector α n := v.setIfInBounds i x

/-- The lists of a fold over 0 to n - 1. -/
def upTo {α : Type} (n : Nat) (f : Nat → α) : List α := (List.range n).map f

/-- The sum of a list. -/
def sumN (xs : List Nat) : Nat := xs.foldl (· + ·) 0

/-- The maximum of a list, 0 for none. -/
def maxN (xs : List Nat) : Nat := xs.foldl Nat.max 0

/-- Split a byte list into pieces of `n` bytes, with fuel for its length. -/
def chunksAux (n : Nat) : Nat → List Byte → List (List Byte)
  | 0, _ => []
  | _ + 1, [] => []
  | k + 1, bs => bs.take n :: chunksAux n k (bs.drop n)

/-- Pieces of `n` bytes. -/
def chunks (n : Nat) (bs : List Byte) : List (List Byte) := chunksAux n bs.length bs

/-- Insertion of `x` before the first element that `lt` puts after it, keeping the order of equals. -/
def insertBy {α : Type} (lt : α → α → Bool) (x : α) : List α → List α
  | [] => [x]
  | y :: ys => if lt x y then x :: y :: ys else y :: insertBy lt x ys

/-- Stable sort. -/
def sortBy {α : Type} (lt : α → α → Bool) (xs : List α) : List α := xs.foldl (fun acc x => insertBy lt x acc) []

end Sys2Proof.Machine
end

