-- ==== Sys2Proof/Machine/Memory.lean ====
section
/-! DEFINITION. Sparse maps and byte memories: read, write, canonical form. -/

namespace Sys2Proof.Machine

/-- The value at a key. -/
def SMap.find {α : Type} (m : SMap α) (k : Nat) : Option α :=
  match m with
  | [] => none
  | (k', v) :: rest => if k = k' then some v else SMap.find rest k

/-- Store a value at a key, keys rising. -/
def SMap.insert {α : Type} (m : SMap α) (k : Nat) (v : α) : SMap α :=
  match m with
  | [] => [(k, v)]
  | (k', v') :: rest =>
    if k = k' then (k, v) :: rest
    else if k < k' then (k, v) :: (k', v') :: rest
    else (k', v') :: SMap.insert rest k v

/-- Remove a key. -/
def SMap.erase {α : Type} (m : SMap α) (k : Nat) : SMap α :=
  match m with
  | [] => []
  | (k', v) :: rest => if k = k' then SMap.erase rest k else (k', v) :: SMap.erase rest k

/-- The value at a key, or a default. -/
def SMap.getD {α : Type} (m : SMap α) (k : Nat) (d : α) : α := (SMap.find m k).getD d

/-- Change every value. -/
def SMap.mapVals {α : Type} (m : SMap α) (f : Nat → α → α) : SMap α := m.map (fun p => (p.1, f p.1 p.2))

/-- The byte at an address: what no entry lists reads as 0 (log entry 1). -/
def Mem.read (m : Mem) (a : Nat) : Byte := SMap.getD m a 0

/-- Store one byte, keeping the canonical form: a 0 removes the entry. -/
def Mem.write (m : Mem) (a : Nat) (b : Byte) : Mem := if b = 0 then SMap.erase m a else SMap.insert m a b

/-- The `n` bytes from an address up. -/
def Mem.readN (m : Mem) (a : Nat) : Nat → List Byte
  | 0 => []
  | n + 1 => Mem.read m a :: Mem.readN m (a + 1) n

/-- Store bytes from an address up. -/
def Mem.writeN (m : Mem) (a : Nat) : List Byte → Mem
  | [] => m
  | b :: bs => Mem.writeN (Mem.write m a b) (a + 1) bs

/-- The little-endian number of `n` bytes at an address (R9). -/
def Mem.load (m : Mem) (a n : Nat) : Nat := leNat (Mem.readN m a n)

/-- Store the `n` low bytes of a number at an address, little-endian (R9). -/
def Mem.store (m : Mem) (a n v : Nat) : Mem := Mem.writeN m a (leBytes n v)

/-- The granule at an address (R203). -/
def Mem.granule (m : Mem) (a : Nat) : V128 := BitVec.ofNat 128 (Mem.load m a 16)

/-- Store a granule. -/
def Mem.setGranule (m : Mem) (a : Nat) (v : V128) : Mem := Mem.store m a 16 v.toNat

/-- The canonical form of a byte memory from a lowest permitted address: addresses strictly rising, no byte 0. -/
def Mem.wfFrom (lo : Nat) : Mem → Bool
  | [] => true
  | (a, b) :: rest => decide (lo ≤ a) && (b != 0) && Mem.wfFrom (a + 1) rest

/-- The canonical form of a byte memory. -/
def Mem.wf (m : Mem) : Bool := Mem.wfFrom 0 m

end Sys2Proof.Machine
end

