-- ==== Sys2Proof/Machine/Ops.lean ====
section
/-! DEFINITION. The named operations over registers, tokens, events and traps of a tile: taking a trap (R219) and the
return from one (R239) are here, once, for every instruction. -/

namespace Sys2Proof.Machine

/-! ## Units -/

/-- The tile of a rank's local number; a tile that nothing has changed is as at reset. -/
def tileOf (s : State) (r : Nat) : Tile := SMap.getD s.tiles r Tile.reset

/-- Replace a tile. -/
def setTile (s : State) (r : Nat) (t : Tile) : State := { s with tiles := SMap.insert s.tiles r t }

/-- Change a tile. -/
def modTile (s : State) (r : Nat) (f : Tile → Tile) : State := setTile s r (f (tileOf s r))

/-- The tile whose keeper issues. -/
def cur (s : State) : Tile := tileOf s s.focus.val

/-- Change the tile whose keeper issues. -/
def modCur (s : State) (f : Tile → Tile) : State := modTile s s.focus.val f

/-- The package cluster of a tile (R15). -/
def clusterOf (r : Nat) : Nat := r / 256 * 32 + (r % 256 / 16) / 2 * 4 + r % 16 / 4

/-- The position of a tile within its cluster (R15). -/
def posOf (r : Nat) : Nat := r % 16 % 4 + 4 * (r % 256 / 16 % 2)

/-- The tile at a position of a cluster (R15). -/
def tileAt (c pos : Nat) : Nat := c / 32 * 256 + (c % 32 / 4 * 2 + pos / 4) * 16 + c % 4 * 4 + pos % 4

def lensOf (s : State) (c : Nat) : Lens := SMap.getD s.lenses c Lens.reset
def setLens (s : State) (c : Nat) (l : Lens) : State := { s with lenses := SMap.insert s.lenses c l }
def modLens (s : State) (c : Nat) (f : Lens → Lens) : State := setLens s c (f (lensOf s c))

def serverOf (s : State) (v : Nat) : Server := SMap.getD s.servers v Server.reset
def setServer (s : State) (v : Nat) (x : Server) : State := { s with servers := SMap.insert s.servers v x }

def linkOf (s : State) (l : Nat) : Link := SMap.getD s.links l Link.reset
def setLink (s : State) (l : Nat) (x : Link) : State := { s with links := SMap.insert s.links l x }

def routerOf (s : State) (n : Nat) : Router := SMap.getD s.routers n Router.reset
def setRouter (s : State) (n : Nat) (x : Router) : State := { s with routers := SMap.insert s.routers n x }

/-- The tile whose record holds a tile's state: a follower of a duplex pair is its leader (R221). -/
def holder (s : State) (r : Nat) : Nat := if (tileOf s r).duplex = .follower then r - 1 else r

/-! ## Keeper registers, issue (R198, R229, R230) -/

/-- A keeper register; k0 reads as zero (R198). -/
def Keeper.get (k : Keeper) (a : BitVec 5) : W64 := if a = 0 then 0 else vget k.k a.toNat 0

/-- Write a keeper register; a write to k0 is discarded (R198, R229). -/
def Keeper.put (k : Keeper) (d : BitVec 5) (v : W64) : Keeper :=
  if d = 0 then k else { k with k := vset k.k d.toNat v }

/-- The value of a register of the issuing keeper. -/
def kreg (s : State) (a : BitVec 5) : W64 := (cur s).keeper.get a

/-- The clk between two issues: one, or two under CHECKMODE.on (R215, R229). -/
def issueGap (t : Tile) : Nat := if bit t.ctrl.checkmode 0 then 2 else 1

/-- The instruction retires and the next one stands at `pc`, to issue `n` clk later, or two under CHECKMODE. -/
def goTo (s : State) (pc : W64) (n : Nat) : State :=
  modCur s (fun t => { t with keeper := { t.keeper with
    pc := pc, issueAt := s.cycle + Nat.max n (issueGap t), waiting := none, ticket := none } })

/-- The instruction retires and its successor is next (R229). -/
def advance (s : State) : State := goTo s ((cur s).keeper.pc + 4) 1

/-- Write a register, readable `lat` clk later, and no earlier than an earlier writer delivers; a write to k0 delays nothing
(R229). -/
def putReg (s : State) (d : BitVec 5) (v : W64) (lat : Nat) : State :=
  if d = 0 then s
  else modCur s (fun t => { t with keeper := { t.keeper.put d v with
    regReady := vset t.keeper.regReady d.toNat (Nat.max (vget t.keeper.regReady d.toNat 0) (s.cycle + lat)) } })

/-- The instruction writes a register and its successor is next. -/
def retireReg (s : State) (d : BitVec 5) (v : W64) (lat : Nat) : State := advance (putReg s d v lat)

/-- The instruction waits at its boundary: it is tried again in each clk (R240, R243). -/
def waitHere (s : State) (i : Instr) : State :=
  modCur s (fun t => { t with keeper := { t.keeper with waiting := some i, issueAt := s.cycle + 1 } })

/-- Complete a waiting instruction if its condition holds, or wait (R240). -/
def orWait (i : Instr) (s : State) (x : Option State) : State :=
  match x with
  | some s' => s'
  | none => waitHere s i

/-- Take an event's effect if its condition holds; otherwise nothing happens. -/
def orStay (s : State) (x : Option State) : State := x.getD s

/-! ## Levels, bounds (R199, R203) -/

/-- The level of a tile's keeper: true at station level (R198). -/
def atStation (t : Tile) : Bool := t.keeper.station

/-- The job id in JOBID (R449). -/
def jobOf (t : Tile) : BitVec 16 := t.ctrl.jobid.extractLsb' 0 16

/-- The job-level limit: SRAMLIM, and never into the station region (R199, R203). -/
def jobLimit (t : Tile) : Nat := Nat.min (fld t.ctrl.sramlim 12 9 * 4096) 0x1F0000

/-- Whether an access of `n` bytes at `a` stays within what the level reaches (R199, R203, R234). -/
def inBounds (t : Tile) (station : Bool) (a n : Nat) : Bool :=
  a + n ≤ (if station then 0x200000 else jobLimit t)

/-- Whether an address lies in the skew region (R205). -/
def inSkew (t : Tile) (a : Nat) : Bool :=
  let base := fld t.ctrl.skewbase 10 11 * 1024
  let rows := fld t.ctrl.skewpitch 16 11 + 1
  let p := (fld t.ctrl.skewpitch 0 4 + 1) * 1024
  bit t.ctrl.skewbase 0 && decide (base ≤ a) && decide (a < Nat.min (base + rows * p) 0x200000)

/-- The skew mapping (R205); an address outside the region is not translated. -/
def skewMap (t : Tile) (a : Nat) : Nat :=
  if inSkew t a then
    let base := fld t.ctrl.skewbase 10 11 * 1024
    let p := (fld t.ctrl.skewpitch 0 4 + 1) * 1024
    let o := a - base
    let row := o / p
    let col := o % p / 16
    base + row * p + (col / 64 * 64 + (col + row) % 64) * 16 + o % 16
  else a

/-! ## Stores to SRAM, with the undo log of an open checkpoint (R222) -/

/-- The entries that the 116 KiB undo log holds at 20 bytes each (R221, R222). -/
def undoMax : Nat := 5939

/-- Set a bit of EVENTS (R217). -/
def setEvent (n : Nat) (t : Tile) : Tile := { t with ctrl := { t.ctrl with events := t.ctrl.events ||| oneBit n } }

/-- Close the checkpoint (R222). -/
def closeCkpt (t : Tile) : Tile := { t with ckpt := none }

/-- The place of the next entry of the undo log in SRAM (R221, R222). -/
def undoAt (c : Checkpoint) : Nat := 0x1D3000 + 20 * (c.granules.length + c.slots.length)

/-- The bytes of an undo-log entry: the 16 old bytes, then the tag (R222). -/
def undoEntry (slot : Bool) (n : Nat) (v : V128) : List Byte := leBytes 16 v.toNat ++ leBytes 4 (Config.undoTag slot n).toNat

/-- Log the old value of a granule at its first write since the CKPT (R222). -/
def logGranule (a : Nat) (t : Tile) : Tile :=
  match t.ckpt with
  | none => t
  | some c =>
    let g := a / 16 * 16
    let v := Mem.granule t.sram g
    if (c.granules.map Prod.fst).contains g then t
    else if undoMax ≤ c.granules.length + c.slots.length then setEvent 40 (closeCkpt t)
    else { t with ckpt := some { c with granules := c.granules ++ [(g, v)] },
                  sram := Mem.writeN t.sram (undoAt c) (undoEntry false (g / 16) v) }

/-- Log the old value of a workspace slot at its first write since the CKPT (R222). -/
def logSlot (x : Nat) (t : Tile) : Tile :=
  match t.ckpt with
  | none => t
  | some c =>
    if (c.slots.map Prod.fst).contains x then t
    else if undoMax ≤ c.granules.length + c.slots.length then setEvent 40 (closeCkpt t)
    else { t with ckpt := some { c with slots := c.slots ++ [(x, SMap.getD t.ws x 0)] },
                  sram := Mem.writeN t.sram (undoAt c) (undoEntry true x (SMap.getD t.ws x 0)) }

/-- Store one byte of SRAM by the keeper, a lamp or the copy engine. -/
def storeByte (a : Nat) (b : Byte) (t : Tile) : Tile :=
  let t := logGranule a t
  { t with sram := Mem.write t.sram a b }

/-- Store bytes of SRAM by the keeper, a lamp or the copy engine. -/
def storeBytes (a : Nat) (bs : List Byte) (t : Tile) : Tile :=
  match bs with
  | [] => t
  | b :: rest => storeBytes (a + 1) rest (storeByte a b t)

/-- Store a granule of SRAM. -/
def storeGranule (a : Nat) (v : V128) (t : Tile) : Tile := storeBytes a (leBytes 16 v.toNat) t

/-- Write a register slot of the workspace store: block times 8 plus position (R72). -/
def storeSlot (x : Nat) (v : V128) (t : Tile) : Tile :=
  let t := logSlot x t
  { t with ws := SMap.insert t.ws x v }

/-- The SRAM bank of an address (R204). -/
def sramBank (a : Nat) : Nat := a / 16 % 64

/-- Whether a bank has already granted an access in this clk (R204). -/
def bankBusy (s : State) (t : Tile) (a : Nat) : Bool :=
  t.bankClk == s.cycle && t.banksUsed.contains (sramBank a)

/-- A bank grants an access in this clk (R204). -/
def useBank (now a : Nat) (t : Tile) : Tile :=
  { t with bankClk := now,
           banksUsed := sramBank a :: (if t.bankClk == now then t.banksUsed else []),
           codeRead := if t.bankClk == now then t.codeRead else [] }

/-! ## Done words (R445) -/

/-- Change the job of an id that has not ended (R450). -/
def modJob (id : BitVec 16) (f : Job → Job) (s : State) : State :=
  { s with ls := { s.ls with jobs := s.ls.jobs.map (fun x => x.map (fun j => if j.id = id ∧ j.st ≠ .ended then f j else j)) } }

/-- The leaf word of DONE (R445). -/
def leafWord (w : W64) : W64 := (w &&& maskBits 48 16) ||| (if fld w 48 16 = 0 then 0 else oneBit 32) ||| (w &&& maskBits 0 32)

/-- Whether a tile's own word has been sent: by its DONE, or on its behalf (R445). -/
def leafSent (j : Job) (r : Nat) : Bool := j.words.any (fun x => x.1 == r && x.2.1 == r)

/-- Send a tile's own word up the done tree, once (R445). -/
def sendLeaf (id : BitVec 16) (r : Nat) (w : W64) (s : State) : State :=
  modJob id (fun j => if leafSent j r then j else { j with words := j.words ++ [(r, r, leafWord w)] }) s

/-! ## Traps (R218, R219, R239) -/

/-- The TRAPCAUSE word of R218 without its read-only bits. -/
def causeWord (async : Bool) (cause agent tok : Nat) : W64 :=
  BitVec.ofNat 64 (ofBool async * 2 ^ 31 + tok % 64 * 2 ^ 16 + agent % 32 * 2 ^ 8 + cause % 16)

/-- TakeTrap of R219. The handler's first instruction issues 3 clk after the boundary (R230). Codes 10 and 11 are PREEMPT
and DEBUG. -/
def takeTrap (async : Bool) (cause : Nat) (val : W64) (agent tok : Nat) (resume : W64) (now : Nat) (t : Tile) : Tile :=
  let k := t.keeper
  let w := causeWord async cause agent tok
  if k.station || cause == 10 || cause == 11 || k.inTrap || !bit t.ctrl.trapvec 0 then
    { t with
      ctrl := { t.ctrl with
        strappc := resume, strapval := val, strapcause := putBit w 29 k.station },
      keeper := { k with
        station := true, pc := 0x1F0000, waiting := none, ticket := none, issueAt := now + 3 } }
  else
    { t with
      ctrl := { t.ctrl with trappc := resume, trapval := val, trapcause := w },
      keeper := { k with
        inTrap := true, pc := BitVec.ofNat 64 (fld t.ctrl.trapvec 2 19 * 4), waiting := none, ticket := none,
        issueAt := now + 3 } }

/-- Whether a trap ends the tile's part in its job (R219, R445): a job trap that goes to station level because in_trap is
set or TRAPVEC is not valid. -/
def failsJob (cause : Nat) (t : Tile) : Bool :=
  !t.keeper.station && cause != 10 && cause != 11 && (t.keeper.inTrap || !bit t.ctrl.trapvec 0)

/-- The keeper in focus takes a trap: the tile changes as `f` says, and where the trap fails the job the word 0x8001 of the
station firmware goes up the done tree (R219, R445; log entry 16). -/
def enterTrap (cause : Nat) (f : Tile → Tile) (s : State) : State :=
  let t := cur s
  let s := if failsJob cause t then sendLeaf (jobOf t) s.focus.val (BitVec.ofNat 64 (0x8001 * 2 ^ 48)) s else s
  modCur s f

/-- A synchronous trap of the issuing instruction (R218): resumed at that instruction, agent none. -/
def syncTrap (cause : Nat) (val : W64) (s : State) : State :=
  enterTrap cause (fun t => takeTrap false cause val 31 0 t.keeper.pc s.cycle t) s

/-- The word of the issuing instruction, for TRAPVAL (R226, R227). -/
def wordOf (i : Instr) : W64 := ((encode i).getD 0).zeroExtend 64

/-- ILLEGAL, with TRAPVAL holding a value (R218). -/
def trapIllegal (val : W64) (s : State) : State := syncTrap 1 val s
/-- SRAM_BOUND (R218). -/
def trapBound (a : W64) (s : State) : State := syncTrap 2 a s
/-- MISALIGNED (R218). -/
def trapMisaligned (a : W64) (s : State) : State := syncTrap 3 a s
/-- PRIV (R218). -/
def trapPriv (val : W64) (s : State) : State := syncTrap 4 val s

/-- The return from a trap (R239): at job level in_trap clears and the PC returns to TRAPPC; at station level the level
returns to the one recorded, and the PC to STRAPPC. The reserved bits of the saved PC read as zero. -/
def trapReturn (s : State) : State :=
  let t := cur s
  if t.keeper.station then
    goTo (modCur s (fun t => { t with keeper := { t.keeper with station := bit t.ctrl.strapcause 29 } }))
      (t.ctrl.strappc &&& maskBits 2 19) 3
  else
    goTo (modCur s (fun t => { t with keeper := { t.keeper with inTrap := false } }))
      (t.ctrl.trappc &&& maskBits 2 19) 3

/-! ## Tokens (R208, R212, R452, R454) -/

/-- The count of a token of a level. -/
def tokCount (t : Tile) (station : Bool) (n : Nat) : Nat :=
  if station then vget t.stok n 0 else vget t.eng.tok n 0

/-- Whether a token is set; t0 always is (R208, R452). -/
def tokSet (t : Tile) (station : Bool) (n : Nat) : Bool := n == 0 || tokCount t station n == 0

/-- The view TOKLO of a level (R212). -/
def tokLo (t : Tile) (station : Bool) : W64 :=
  (List.range 64).foldl (fun w n => putBit w n (tokSet t station n)) 0

/-- Change the context of a job: the active one if it is the tile's job, otherwise the parked one (R454, R457). -/
def withCtx (job : BitVec 16) (f : EngineCtx → EngineCtx) (t : Tile) : Tile :=
  match t.parked with
  | some (j, e) =>
    if j = job then { t with parked := some (j, f e) } else if job = jobOf t then { t with eng := f t.eng } else t
  | none => if job = jobOf t then { t with eng := f t.eng } else t

/-- The context of a job. -/
def ctxOf (job : BitVec 16) (t : Tile) : EngineCtx :=
  match t.parked with
  | some (j, e) => if j = job then e else t.eng
  | none => t.eng

/-- Add 1 to a token's count at issue, for n ≥ 1 (R208). -/
def addTok (station : Bool) (n : Nat) (t : Tile) : Tile :=
  if n = 0 then t
  else if station then { t with stok := vset t.stok n (vget t.stok n 0 + 1) }
  else { t with eng := { t.eng with tok := vset t.eng.tok n (vget t.eng.tok n 0 + 1) } }

/-- Subtract 1 from a token's count at completion, for n ≥ 1 (R208), in the context of the command's job. -/
def subTok (station : Bool) (job : BitVec 16) (n : Nat) (t : Tile) : Tile :=
  if n = 0 then t
  else if station then { t with stok := vset t.stok n (vget t.stok n 0 - 1) }
  else withCtx job (fun e => { e with tok := vset e.tok n (vget e.tok n 0 - 1) }) t

/-- Whether an engine finds a token set: it sees the counts as they stood at the start of the clk (R499). -/
def tokThere (t : Tile) (station : Bool) (n : Nat) : Bool :=
  tokSet t station n && (n == 0 || bit (if station then t.stokSeen else t.tokSeen) n)

/-- Whether an engine finds the three input tokens of a command set (R209). -/
def inputsSet (t : Tile) (c : KCmd) : Bool :=
  tokThere t c.station c.tin0.toNat && tokThere t c.station c.tin1.toNat && tokThere t c.station c.tin2.toNat

/-! ## Free values (log entry 4) -/

/-- Take the next free value. -/
def fresh (s : State) : W64 × State := (Config.unspecified s.freeCtr, { s with freeCtr := s.freeCtr + 1 })

/-- A free choice among `n` things. -/
def freshPick (s : State) (n : Nat) : Nat × State :=
  let (w, s') := fresh s
  (if n = 0 then 0 else w.toNat % n, s')

end Sys2Proof.Machine
end

