-- ==== Sys2Proof/Machine/Domains.lean ====
section
/-! DEFINITION. Who belongs to what: the tiles of a job, the members of a domain (R383), the domain of a tile's register
and its collective state (R384). -/

namespace Sys2Proof.Machine

/-- The resident job of an id (R449, R450); a job that is not ENDED stands before the record of an ended one. -/
def jobById (s : State) (id : BitVec 16) : Option Job :=
  let js := s.ls.jobs.toList.filterMap (fun x => x)
  match js.find? (fun j => j.id == id && j.st != .ended) with
  | some j => some j
  | none => js.find? (fun j => j.id == id)

/-- The compute tiles of a job, rising: those the lightship placed and that have not left (R276), or, for an id the
lightship holds no record of, the tiles whose JOBID shows it. A duplex pair is its leader (R221). -/
def jobTiles (s : State) (id : BitVec 16) : List Nat :=
  match jobById s id with
  | some j => sortBy (fun a b => decide (a < b)) ((j.placed.map (fun p => p.rank)).filter (fun r => !j.left.contains r))
  | none => (s.tiles.filter (fun p => jobOf p.2 == id && p.2.duplex != .follower)).map Prod.fst

/-- Whether a tile of a job has parked and has not yet been restored (R450, R453): it has acknowledged its park. -/
def Job.away (j : Job) (r : Nat) : Bool :=
  (j.st == .parked && (j.toAck.isEmpty || j.toAck.contains r))
    || (j.st == .running && j.saveBase.isSome && !j.toAck.isEmpty && !j.toAck.contains r)

/-- Whether a tile is parked as a member of a job (R457): it shows another job, it holds the job's context parked, or it has
acknowledged its park. -/
def tileAway (s : State) (id : BitVec 16) (r : Nat) : Bool :=
  jobOf (tileOf s r) != id || ((tileOf s r).parked.map Prod.fst) == some id || (jobById s id).any (fun j => j.away r)

/-- The tile map's mark of a unit (R461); tiles 0 to 1023, servers 1024 to 1055, lenses 2048, links 3072, routers 4096. -/
def mapKey (u : MapUnit) : Nat :=
  match u with
  | .tile n => n
  | .server n => 1024 + n
  | .lens n => 2048 + n
  | .link n => 3072 + n
  | .router n => 4096 + n

/-- Whether the tile map excludes a unit (R461). -/
def excluded (s : State) (u : MapUnit) : Bool := (s.ls.tileMap.map Prod.fst).contains (mapKey u)

/-! ### Domain registers (R382) -/

/-- The value of a domain register of a tile. -/
def domReg (t : Tile) (d : Nat) : W64 := vget t.ctrl.dom d 0

def domLevel (w : W64) : Nat := fld w 59 3
def domBsp (w : W64) : Bool := bit w 63

/-- The register value without its read-only fields. -/
def domShape (w : W64) : W64 := w &&& ~~~ (oneBit 62 ||| maskBits 0 36)

/-- Whether a tile lies in the shape of a register value of the tile `own` (R383). -/
def inShape (w : W64) (own r : Nat) : Bool :=
  let x := r % 16
  let y := r % 256 / 16
  match domLevel w with
  | 1 => clusterOf own == clusterOf r
  | 2 =>
    own / 256 == r / 256 && decide (fld w 48 4 ≤ x) && decide (x ≤ fld w 40 4) && decide (fld w 44 4 ≤ y)
      && decide (y ≤ fld w 36 4)
  | 3 => own / 256 == r / 256
  | 4 => bit w (55 + r / 256)
  | _ => false

/-- The members of the domain that a tile's register names, rising by local rank (R383). -/
def domMembers (s : State) (own d : Nat) : List Nat :=
  let t := tileOf s own
  (jobTiles s (jobOf t)).filter (fun r => inShape (domReg t d) own r && !excluded s (.tile r))

/-- The die or cluster that tells domains of one shape apart: 0 at level 4 (R383). -/
def domPlace (w : W64) (own : Nat) : Nat :=
  match domLevel w with
  | 1 => clusterOf own
  | 4 => 0
  | _ => own / 256

/-- The members of a domain, rising by local rank (R383). -/
def domTiles (s : State) (x : Domain) : List Nat :=
  let own := if domLevel x.shape = 1 then tileAt x.place 0 else x.place * 256
  (jobTiles s x.job).filter (fun r =>
    (match domLevel x.shape with
     | 4 => bit x.shape (55 + r / 256)
     | 2 => x.place == r / 256 && inShape x.shape r r
     | _ => inShape x.shape own r) && !excluded s (.tile r))

/-- Whether a record is the domain of a tile's register (R384, R394: one channel for each register). -/
def isDomain (s : State) (own d : Nat) (x : Domain) : Bool :=
  let t := tileOf s own
  x.job == jobOf t && x.reg == d && x.shape == domShape (domReg t d) && x.place == domPlace (domReg t d) own

/-- A domain as it is created (R384). -/
def newDomain (s : State) (own d : Nat) : Domain where
  job := jobOf (tileOf s own)
  reg := d
  shape := domShape (domReg (tileOf s own) d)
  place := domPlace (domReg (tileOf s own) d) own
  bsp := domBsp (domReg (tileOf s own) d)
  epoch := 0
  kind := 0
  arrivals := []
  commit := none
  broken := false
  toDue := none
  anns := []
  barx := []
  contrib := []
  parts := []
  owed := []
  record := List.replicate 16 0
  owedMasks := []

/-- The registers 0x040 to 0x04F show an arrival record (R397). -/
def putMasks (masks : List W64) (t : Tile) : Tile :=
  { t with ctrl := { t.ctrl with arrival := masks.zipIdx.foldl (fun v p => vset v p.2 p.1) t.ctrl.arrival } }

/-- The domain of a tile's register; one not yet created is as at its creation (R384). -/
def domOf (s : State) (own d : Nat) : Domain := (s.domains.find? (isDomain s own d)).getD (newDomain s own d)

/-- Store the domain of a tile's register. -/
def setDom (s : State) (own d : Nat) (x : Domain) : State :=
  if (s.domains.find? (isDomain s own d)).isSome then
    { s with domains := s.domains.map (fun y => if isDomain s own d y then x else y) }
  else { s with domains := s.domains ++ [x] }

/-- Forget the domain of a tile's register (R384). -/
def dropDom (s : State) (own d : Nat) : State := { s with domains := s.domains.filter (fun y => !isDomain s own d y) }

end Sys2Proof.Machine
end

