-- ==== Sys2Proof/Machine/Control.lean ====
section
/-! DEFINITION. The control registers (R201): numbers, access, what a read shows, and the rule of each register on a
write. -/

namespace Sys2Proof.Machine

/-- The assigned numbers (R201, R397, R453). -/
def crAssigned (n : Nat) : Bool :=
  decide (n ≤ 0xE) || decide (0x10 ≤ n ∧ n ≤ 0x15) || decide (0x18 ≤ n ∧ n ≤ 0x1D) || decide (0x20 ≤ n ∧ n ≤ 0x21)
    || decide (0x28 ≤ n ∧ n ≤ 0x2C) || decide (0x40 ≤ n ∧ n ≤ 0x4F) || decide (0x100 ≤ n ∧ n ≤ 0x101)
    || decide (0x110 ≤ n ∧ n ≤ 0x1FF)

/-- Access R at job level (R201). -/
def crReadOnly (n : Nat) : Bool := decide (n ≤ 4) || n == 6 || n == 7 || decide (0x40 ≤ n ∧ n ≤ 0x4F)

/-- Access P: writable at job level only with CAPS.protreg (R201). -/
def crProtected (n : Nat) : Bool :=
  n == 0x10 || n == 0x13 || n == 0x20 || n == 0x21 || decide (0x28 ≤ n ∧ n ≤ 0x2C)

/-- Access S (R201). -/
def crStation (n : Nat) : Bool := decide (0x100 ≤ n ∧ n ≤ 0x1FF)

/-- Read-only at both levels (R201, R237). -/
def crFixed (n : Nat) : Bool := n == 0 || n == 3 || n == 6 || n == 7

/-- The bits of EVENTS and EVMASK (R217). -/
def eventBits : W64 := maskBits 33 8 ||| maskBits 0 32

/-- The trap registers of the level in force (R219). -/
def trapPcOf (t : Tile) : W64 := if atStation t then t.ctrl.strappc else t.ctrl.trappc
def trapValOf (t : Tile) : W64 := if atStation t then t.ctrl.strapval else t.ctrl.trapval

/-- The stored part of TRAPCAUSE. -/
def causeBits : W64 := oneBit 31 ||| maskBits 16 6 ||| maskBits 8 5 ||| maskBits 0 4

/-- TRAPCAUSE as it reads: bit 30 shows in_trap, bit 29 the previous level in the station copy (R218). -/
def trapCauseOf (t : Tile) : W64 :=
  let w := if atStation t then t.ctrl.strapcause else t.ctrl.trapcause &&& ~~~ oneBit 29
  putBit w 30 t.keeper.inTrap

/-- The value a control register shows at a clk (R201, R236). -/
def crRead (now : Nat) (t : Tile) (n : Nat) : W64 :=
  let c := t.ctrl
  if n = 0x000 then c.rank
  else if n = 0x001 then c.jobid
  else if n = 0x002 then c.caps
  else if n = 0x003 then BitVec.ofNat 64 now
  else if n = 0x004 then c.wingen
  else if n = 0x005 then c.alarm
  else if n = 0x006 then tokLo t (atStation t)
  else if n = 0x007 then tokLo t (atStation t) >>> 32
  else if n = 0x008 then c.trapvec
  else if n = 0x009 then trapCauseOf t
  else if n = 0x00A then trapPcOf t
  else if n = 0x00B then trapValOf t
  else if n = 0x00C then c.events
  else if n = 0x00D then c.evmask
  else if n = 0x00E then c.eccstat
  else if n = 0x010 then c.sramlim
  else if n = 0x011 then c.skewbase
  else if n = 0x012 then c.skewpitch
  else if n = 0x013 then c.uxpool
  else if n = 0x014 then c.checkmode
  else if n = 0x015 then c.freezescope
  else if n = 0x018 then c.fmta
  else if n = 0x019 then c.fmtb
  else if n = 0x01A then c.scla
  else if n = 0x01B then c.sclb
  else if n = 0x01C then c.rndmode
  else if n = 0x01D then c.cvtmode
  else if n = 0x020 then c.eagermax
  else if n = 0x021 then c.matchlog
  else if 0x28 ≤ n ∧ n ≤ 0x2B then putFld (vget c.dom (n - 0x28) 0) 0 36 (vget t.eng.pending (n - 0x28) 0)
  else if n = 0x02C then c.barto
  else if 0x40 ≤ n ∧ n ≤ 0x4F then vget c.arrival (n - 0x40) 0
  else if n = 0x100 then
    match t.parked with
    | some (j, _) => BitVec.ofNat 64 (1 + j.toNat * 65536)
    | none => 0
  else if n = 0x101 then c.lscmd
  else vget c.scratch (n - 0x110) 0

/-- The largest SRAMLIM of a tile (R203, R221). -/
def sramMax (t : Tile) : Nat := if t.duplex = .solo then 0x1F0 else 0x1D0

/-- The end of a pool named by a UXPOOL value, in units of 4 KiB (R207). -/
def poolEnd (w : W64) : Nat := fld w 12 9 + fld w 32 9

/-- Whether a UXPOOL value passes its rule on a tile (R207). -/
def uxpoolOk (t : Tile) (w : W64) : Bool :=
  decide (1 ≤ fld w 32 9 ∧ fld w 32 9 ≤ 256) && decide (poolEnd w ≤ fld t.ctrl.sramlim 12 9) && t.eng.pool.isEmpty

/-- Whether a SRAMLIM value passes its rule on a tile (R203). -/
def sramlimOk (t : Tile) (w : W64) : Bool :=
  decide (fld w 12 9 ≤ sramMax t) && decide (poolEnd t.ctrl.uxpool ≤ fld w 12 9)

/-- Whether a MATCHLOG value passes its rule on a tile (R279). -/
def matchlogOk (t : Tile) (w : W64) : Bool :=
  let base := fld w 12 9 * 4096
  let n := 2 ^ fld w 40 5 * 16
  let pb := fld t.ctrl.uxpool 12 9 * 4096
  let pe := poolEnd t.ctrl.uxpool * 4096
  decide (4 ≤ fld w 40 5 ∧ fld w 40 5 ≤ 15) && fld w 0 2 != 3 && decide (base + n ≤ fld t.ctrl.sramlim 12 9 * 4096)
    && decide (base + n ≤ pb ∨ pe ≤ base)

/-- Whether a tile has a beacon operation outstanding on a register (R382). -/
def beaconOpen (s : State) (r d : Nat) : Bool :=
  let x := domOf s r d
  x.parts.any (fun p => p.tile.val == r && p.result.isNone) || x.arrivals.any (fun a => a.tile.val == r)
    || (tileOf s r).eng.scanQ.any (fun c => c.op == 0x3A && c.sub.toNat == d)

/-- Whether a domain register value passes its rule on a tile (R382). -/
def domOk (r : Nat) (w : W64) : Bool :=
  let lv := domLevel w
  decide (lv ≤ 4) && (lv == 2 || fld w 36 16 == 0) && (lv == 4 || fld w 55 4 == 0)
    && (lv != 2 || (decide (fld w 48 4 ≤ fld w 40 4) && decide (fld w 44 4 ≤ fld w 36 4) && inShape w r r))
    && (lv != 4 || bit w (55 + r / 256))

/-- Exchange of the engine contexts (R454). The context that goes out is kept as parked, except one without a job of its
own when the parked context comes back (log entry 14). -/
def swapCtx (t : Tile) : Tile :=
  match t.parked with
  | none => { t with eng := EngineCtx.reset, parked := some (jobOf t, t.eng) }
  | some (j, e) =>
    { t with eng := e, parked := if t.eng = EngineCtx.reset ∨ jobOf t = j then none else some (jobOf t, t.eng) }

/-- A parked context whose job has ended is gone (R451). -/
def dropEnded (s : State) (t : Tile) : Tile :=
  match t.parked with
  | some (j, _) => if (jobById s j).any (fun x => x.st == .ended) then { t with parked := none } else t
  | none => t

/-- The rule of a register on a write to a tile: none where it refuses the value (R201). At station level EVENTS and ECCSTAT are
written whole; a job's write leaves the count of ECCSTAT as it is (log entry 104). LSCMD's acknowledgement is the
lightship's part (`lscmdStore`). -/
def crPut (r : Nat) (t : Tile) (n : Nat) (v : W64) : Option Tile :=
  let c := t.ctrl
  let put (c : Ctrl) : Option Tile := some { t with ctrl := c }
  let st := atStation t
  if n = 0x001 then put { c with jobid := v &&& maskBits 0 21 }
  else if n = 0x002 then put { c with caps := v &&& maskBits 0 3 }
  else if n = 0x004 then put { c with wingen := v &&& maskBits 0 17 }
  else if n = 0x005 then put { c with alarm := v }
  else if n = 0x008 then put { c with trapvec := v &&& (maskBits 2 19 ||| 1) }
  else if n = 0x009 then
    if st then
      some { t with ctrl := { c with strapcause := v &&& (causeBits ||| oneBit 29) },
                    keeper := { t.keeper with inTrap := bit v 30 } }
    else put { c with trapcause := v &&& causeBits }
  else if n = 0x00A then
    put (if st then { c with strappc := v &&& maskBits 2 19 } else { c with trappc := v &&& maskBits 2 19 })
  else if n = 0x00B then put (if st then { c with strapval := v } else { c with trapval := v })
  else if n = 0x00C then put { c with events := if st then v &&& eventBits else c.events &&& ~~~ v }
  else if n = 0x00D then put { c with evmask := (v &&& eventBits) ||| oneBit 38 ||| oneBit 39 }
  else if n = 0x00E then
    put { c with eccstat := if st then v &&& maskBits 0 40 else c.eccstat &&& ~~~ (v &&& maskBits 32 8) }
  else if n = 0x010 then if sramlimOk t v then put { c with sramlim := v &&& maskBits 12 9 } else none
  else if n = 0x011 then put { c with skewbase := v &&& (maskBits 10 11 ||| 1) }
  else if n = 0x012 then put { c with skewpitch := v &&& (maskBits 16 11 ||| maskBits 0 4) }
  else if n = 0x013 then
    if uxpoolOk t v then put { c with uxpool := v &&& (maskBits 32 9 ||| maskBits 12 9) } else none
  else if n = 0x014 then put { c with checkmode := v &&& (maskBits 32 16 ||| maskBits 0 2) }
  else if n = 0x015 then put { c with freezescope := v &&& 1 }
  else if n = 0x018 then if fld v 0 4 ≤ 0xC then put { c with fmta := v &&& maskBits 0 4 } else none
  else if n = 0x019 then if fld v 0 4 ≤ 0xC then put { c with fmtb := v &&& maskBits 0 4 } else none
  else if n = 0x01A then put { c with scla := v &&& (maskBits 62 2 ||| maskBits 0 21) }
  else if n = 0x01B then put { c with sclb := v &&& (maskBits 62 2 ||| maskBits 0 21) }
  else if n = 0x01C then put { c with rndmode := v &&& maskBits 0 4 }
  else if n = 0x01D then put { c with cvtmode := v &&& maskBits 0 2 }
  else if n = 0x020 then
    if 1 ≤ fld v 0 6 ∧ fld v 0 6 ≤ 32 then put { c with eagermax := v &&& maskBits 0 6 } else none
  else if n = 0x021 then
    if matchlogOk t v then
      put { c with matchlog := v &&& (maskBits 48 16 ||| maskBits 40 5 ||| maskBits 12 9 ||| maskBits 0 3) }
    else none
  else if 0x28 ≤ n ∧ n ≤ 0x2B then
    let d := n - 0x28
    if domOk r v then
      let old := vget c.dom d 0
      let keep := if st then 0 else oneBit 62
      let shape := oneBit 63 ||| (if st then oneBit 62 else 0) ||| maskBits 55 7 ||| maskBits 36 16
      put { c with dom := vset c.dom d ((v &&& shape) ||| (old &&& keep)) }
    else none
  else if n = 0x02C then put { c with barto := v &&& maskBits 0 48 }
  else if 0x40 ≤ n ∧ n ≤ 0x4F then put { c with arrival := vset c.arrival (n - 0x40) v }
  else if n = 0x100 then if bit v 0 then some (swapCtx t) else some t
  else if n = 0x101 then put { c with lscmd := v &&& (maskBits 16 16 ||| maskBits 0 6) }
  else if 0x110 ≤ n ∧ n ≤ 0x1FF then put { c with scratch := vset c.scratch (n - 0x110) v }
  else none

/-- A job after tile `r` has acknowledged the lightship's command: 1 park, 2 restore (R450, R453). -/
def ackJob (cmd : Nat) (r : Nat) (j : Job) : Job :=
  if (cmd = 1 ∨ cmd = 2) ∧ j.toAck.contains r then
    let rest := j.toAck.filter (fun x => x != r)
    if !rest.isEmpty then { j with toAck := rest }
    else if cmd = 1 then { j with toAck := rest, st := .parked }
    else { j with toAck := rest, st := .running, saveBase := none, saveLost := false }
  else j

/-- The beacon results and arrival records kept for a parked tile are written before its keeper resumes, and WINGEN shows the
generation that the job has reached (R397, R457, R437). -/
def payOwed (r : Nat) (s : State) : State :=
  let job := jobOf (tileOf s r)
  let ws := (s.domains.filter (fun x => x.job == job)).flatMap (fun x => x.owed.filter (fun o => o.tile.val == r))
  let masks := (s.domains.filter (fun x => x.job == job)).flatMap (fun x => x.owedMasks.filter (fun o => o.1.val == r))
  let s := { s with domains := s.domains.map (fun x =>
    if x.job = job then { x with owed := x.owed.filter (fun o => o.tile.val != r),
                                 owedMasks := x.owedMasks.filter (fun o => o.1.val != r) } else x) }
  let gen (w : W64) : W64 := match jobById s job with
    | some j => BitVec.ofNat 64 (ofBool j.old.isSome * 65536 + j.gen.toNat)
    | none => w
  modTile s r (fun t =>
    { masks.foldl (fun t o => putMasks o.2 t) t with
             sram := ws.foldl (fun m o => Mem.writeN m o.addr o.bytes) t.sram,
             ctrl := { t.ctrl with wingen := gen t.ctrl.wingen } })

/-- A write of LSCMD (R453): a station write of 0 acknowledges the command; the last acknowledgement of a job makes it
PARKED or RUNNING (R450). -/
def lscmdStore (r : Nat) (v : W64) (s : State) : State :=
  let cmd := fld (tileOf s r).ctrl.lscmd 0 4
  let s := modTile s r (fun t => { t with ctrl := { t.ctrl with lscmd := v &&& (maskBits 16 16 ||| maskBits 0 6) } })
  if fld v 0 4 ≠ 0 then s
  else
    let s := if cmd = 2 then payOwed r s else s
    { s with ls := { s.ls with jobs := s.ls.jobs.map (fun x => x.map (ackJob cmd r)) } }

/-- A write of a register to the state after its own rule: none where the rule refuses it (R201). A change of a domain
register discards the domain's collective state (R384). -/
def crStore (r n : Nat) (v : W64) (s : State) : Option State :=
  let t := tileOf s r
  if n = 0x101 then some (lscmdStore r v s)
  else
    if 0x28 ≤ n ∧ n ≤ 0x2B ∧ beaconOpen s r (n - 0x28) then none
    else match crPut r t n v with
    | none => none
    | some t' =>
      let s' := if 0x28 ≤ n ∧ n ≤ 0x2B ∧ domShape (domReg t (n - 0x28)) ≠ domShape (domReg t' (n - 0x28))
        then dropDom s r (n - 0x28) else s
      some (setTile s' r (if n = 0x100 then dropEnded s t' else t'))

end Sys2Proof.Machine
end

