-- ==== Sys2Proof/Machine/Lamps.lean ====
section
/-! DEFINITION. Lamps: their state, the counts and queues of the workspace blocks (R87 to R94), holds (R83, R84, R98),
faults (R98), operations in flight (R76) and the status word (R70). -/

namespace Sys2Proof.Machine

def lampAt (t : Tile) (l : Nat) : Lamp := vget t.act.lamps l Lamp.reset
def setLamp (l : Nat) (x : Lamp) (t : Tile) : Tile := { t with act := { t.act with lamps := vset t.act.lamps l x } }
def modLamp (l : Nat) (f : Lamp → Lamp) (t : Tile) : Tile := setLamp l (f (lampAt t l)) t

/-- Change every active lamp. -/
def mapLamps (f : Nat → Lamp → Lamp) (t : Tile) : Tile :=
  (List.range 16).foldl (fun t l => modLamp l (f l) t) t

/-- A lamp that issues bundles (R69). -/
def Lamp.issuing (x : Lamp) : Bool := x.st == .flashed || x.st == .running || x.st == .draining

/-- A lamp that LJOIN and DONE do not wait for (R241, R301). -/
def Lamp.ended (x : Lamp) : Bool := x.st == .stopped || x.st == .faulted

/-- The state a lamp returns to after a wait or a fault (R69). -/
def Lamp.goOn (x : Lamp) : LampState := if x.drain then .draining else .running

/-- The clk between two bundles of a lamp, which is also what one clk of exposed latency takes (R215). -/
def lampGap (t : Tile) : Nat := if bit t.ctrl.checkmode 0 then 2 else 1

/-- The lamps of a mask. -/
def maskLamps (w : W64) : List Nat := (List.range 16).filter (fun l => bit w l)

/-! ## Holds: clk counted from 0 while a lamp is held (R84, R98, R99, R458) -/

/-- Shift what a lamp counts in clk. -/
def Lamp.shift (f : Nat → Nat) (x : Lamp) : Lamp :=
  { x with
    flight := x.flight.map (fun o => { o with due := f o.due, ready := o.ready.map f }),
    fetched := x.fetched.map (fun b => { b with readyAt := f b.readyAt }),
    fills := x.fills.map (fun p => (p.1, f p.2)),
    nextAt := f x.nextAt }

/-- Hold a lamp: its counts are kept relative to the present. -/
def Lamp.pause (now : Nat) (x : Lamp) : Lamp :=
  if x.paused then x else { x.shift (fun n => n - now) with paused := true }

/-- Let a lamp go on with its relative timing as it was. -/
def Lamp.unpause (now : Nat) (x : Lamp) : Lamp :=
  if x.paused then { x.shift (fun n => n + now) with paused := false } else x

/-- Whether the lamps of a tile are held as a whole: a halt, a trap for pre-emption, an LSWAP in
progress, a compare mismatch (R99, R222, R304, R458). -/
def tileHeld (now : Nat) (t : Tile) : Bool :=
  t.keeper.debugHalt || t.lampsStopped || t.mismatch || decide (now < t.lswapUntil)

/-- Hold all lamps of a tile; freezes are asserted again when they go on (R83). -/
def pauseLamps (now : Nat) (t : Tile) : Tile :=
  { mapLamps (fun _ x => x.pause now) t with freezes := [] }

/-- Let the lamps of a tile go on, but for the faulted ones (R99). -/
def unpauseLamps (now : Nat) (t : Tile) : Tile :=
  mapLamps (fun _ x => if x.st == .faulted then x else x.unpause now) t

/-! ## Counts (R87, R88) -/

/-- A queued block that LSPILL has written out (R305). -/
def spilledBlock : Nat := 256

/-- The banks a lamp has a pointer for. -/
def Lamp.banks (x : Lamp) : Nat := (x.ptrs.toList.filter (fun p => p.isSome)).length

/-- The held count of a group in a lamp set (R88). -/
def heldCount (a : LampSet) (g : Nat) : Nat :=
  sumN ((a.lamps.toList.filter (fun x => x.group.toNat == g)).map Lamp.banks)
    + ((a.handoff.toList.flatMap (fun q => q)).filter (fun p => p.2 == g)).length

/-- The reserve that held counts leave (R88). -/
def reserveOf (a : LampSet) (h : Nat → Nat) : Nat := sumN (upTo 4 (fun g => vget a.floors g 0 - h g))

/-- The free count (R88). -/
def phi (t : Tile) : Nat := t.free.length

def floorOf (t : Tile) (g : Nat) : Nat := vget t.act.floors g 0
def ceilOf (t : Tile) (g : Nat) : Nat := vget t.act.ceils g 0
def held (t : Tile) (g : Nat) : Nat := heldCount t.act g
def reserve (t : Tile) : Nat := reserveOf t.act (held t)

/-- The free blocks that the lamps' requests of this clk meet: one given in this clk is there from the next (R499). -/
def freeNow (t : Tile) : List Nat := t.free.filter (fun b => !t.fresh.any (fun p => p.1 == b))

/-- The free count that requests of this clk meet (R88, R499). -/
def phiNow (t : Tile) : Nat := (freeNow t).length

/-- The held count that requests of this clk meet: a block given in this clk still counts to its group (R88, R499). -/
def heldNow (t : Tile) (g : Nat) : Nat := held t g + (t.fresh.filter (fun p => p.2 == some g)).length

/-- Counts with one more for `g` and one less for `h`. -/
def heldWith (t : Tile) (g : Nat) (h : Option Nat) (x : Nat) : Nat :=
  heldNow t x + ofBool (x == g) - ofBool (h == some x)

/-- Whether a claim of group `g` is own (R90). -/
def claimOwn (t : Tile) (g : Nat) : Bool := decide (heldNow t g < floorOf t g)

/-- Whether a take by group `g` of a block passed by group `h` is own (R90). -/
def takeOwn (t : Tile) (g h : Nat) : Bool :=
  if g = h then decide (heldNow t g ≤ floorOf t g) else decide (heldNow t g < floorOf t g)

/-- Whether `n` claims that have been classified, as loans where `loan` says so, can be granted together (R91). -/
def claimOk (t : Tile) (g n : Nat) (loan : Bool) : Bool :=
  decide (n ≤ phiNow t) && decide (heldNow t g + n ≤ ceilOf t g)
    && (!loan || decide (reserveOf t.act (fun x => heldNow t x + (if x = g then n else 0)) ≤ phiNow t - n))

/-- Whether a take by `g` of a block passed by `h`, classified as a loan where `loan` says so, can be granted (R91). -/
def takeOk (t : Tile) (g h : Nat) (loan : Bool) : Bool :=
  g == h || (decide (heldNow t g < ceilOf t g)
    && (!loan || decide (reserveOf t.act (heldWith t g (some h)) ≤ phiNow t)))

/-- Whether a lamp holds a loan bank (R90). -/
def Lamp.holdsLoan (x : Lamp) : Bool := x.ptrs.toList.any (fun p => match p with | some w => w.loan | none => false)

/-- The pointer of a bank, none where it is unmapped or spilled. -/
def Lamp.bank (x : Lamp) (b : Nat) : Option WsPtr :=
  match vget x.ptrs b none with
  | some w => if w.spilled then none else some w
  | none => none

/-- Whether a bank has a direct workspace fill in progress (R94): one of a load or a dispatch, one of the keeper, entered as
bank + 4, or one of an LSPILL, entered as bank + 8 until that command completes (R305). -/
def Lamp.filling (now : Nat) (x : Lamp) (b : Nat) : Bool :=
  x.fills.any (fun p => p.1 % 4 == b && (decide (8 ≤ p.1) || decide (now < p.2)))

/-- Whether a load fills a bank, which moves to its registers may not meet (R179). -/
def Lamp.loading (now : Nat) (x : Lamp) (b : Nat) : Bool := x.fills.any (fun p => p.1 == b && decide (now < p.2))

/-- Map a block into a bank (R89). -/
def mapBank (l b blk : Nat) (loan : Bool) (t : Tile) : Tile :=
  modLamp l (fun x => { x with ptrs := vset x.ptrs b (some ⟨blk, loan, false⟩) }) t

/-- Unmap a bank (R89). -/
def unmapBank (l b : Nat) (t : Tile) : Tile := modLamp l (fun x => { x with ptrs := vset x.ptrs b none }) t

/-- Give a bank back (R89). -/
def giveBank (l b : Nat) (t : Tile) : Tile :=
  let x := lampAt t l
  match vget x.ptrs b none with
  | some w =>
    let t := unmapBank l b t
    if w.spilled then t
    else { t with free := t.free ++ [w.block], fresh := t.fresh ++ [(w.block, some x.group.toNat)] }
  | none => t

/-- Write the eight registers of a block. The zero fill of a claim counts as a first write of the slots for the undo log,
which R222 does not say (log entry 95). -/
def fillBlock (blk : Nat) (v : Nat → V128) (t : Tile) : Tile :=
  (List.range 8).foldl (fun t j => storeSlot (blk * 8 + j) (v j) t) t

/-- Take a free block out of the pool: which one is a free choice (R89). -/
def popFree (s : State) (r : Nat) : Option (Nat × State) :=
  let t := tileOf s r
  if (freeNow t).isEmpty then none
  else
    let (i, s) := freshPick s (phiNow t)
    let blk := (freeNow t).getD i 0
    some (blk, setTile s r { t with free := t.free.erase blk })

/-- Claim a block for a bank (R89): it reads as zero. -/
def claimInto (s : State) (r l b : Nat) (loan : Bool) : State :=
  match popFree s r with
  | none => s
  | some (blk, s) => modTile s r (fun t => mapBank l b blk loan (fillBlock blk (fun _ => 0) t))

/-- A handoff queue (R89). -/
def queueOf (t : Tile) (q : Nat) : List (Nat × Nat) := vget t.act.handoff q []
def setQueue (q : Nat) (xs : List (Nat × Nat)) (t : Tile) : Tile :=
  { t with act := { t.act with handoff := vset t.act.handoff q xs } }

/-- The head of a handoff queue that can be taken: one passed in this clk is there from the next clk on (R499); a head that
LSPILL has written out is waited for as if the queue were empty (log entry 96). -/
def queueHead (t : Tile) (q : Nat) : Option (Nat × Nat) :=
  match queueOf t q with
  | (b, h) :: _ => if b = spilledBlock ∨ t.fresh.any (fun p => p.1 == b) then none else some (b, h)
  | [] => none

/-- Whether a lamp still has an access to perform that it triggered before its serial number `n`. -/
def accessBefore (t : Tile) (l n : Nat) : Bool :=
  (lampAt t l).flight.any (fun o => o.mem && o.access.isSome && decide (o.serial < n))

/-- Whether a running LSPILL.in is filling a block (R305). -/
def spillFills (t : Tile) (blk : Nat) : Bool := t.copyRun.any (fun x => x.blocks.contains blk)

/-- Take the head of a queue into a bank, as a loan or own (R89). The accesses that the passing lamp triggered before its
`pass` come before the taking lamp's later ones (R105). A block that an LSPILL is filling goes on being filled (R94, R305). -/
def takeInto (loan : Bool) (l b q : Nat) (t : Tile) : Tile :=
  match queueHead t q with
  | none => t
  | some (blk, _) =>
    let filled := spillFills t blk
    let t := mapBank l b blk loan (setQueue q ((queueOf t q).drop 1) t)
    let t := if filled then modLamp l (fun x => { x with fills := x.fills ++ [(8 + b, 0)] }) t else t
    match SMap.find t.passedBy blk with
    | some p =>
      { modLamp l (fun x => { x with after := x.after.filter (fun p => accessBefore t p.1 p.2) ++ [p] }) t with
        passedBy := SMap.erase t.passedBy blk }
    | none => t

/-- Pass a bank to a queue (R89). -/
def passBank (l b q : Nat) (t : Tile) : Tile :=
  let x := lampAt t l
  match x.bank b with
  | none => t
  | some w =>
    let t := setQueue q (queueOf t q ++ [(w.block, x.group.toNat)]) (unmapBank l b t)
    { t with passedBy := SMap.insert t.passedBy w.block (l, x.serial), fresh := t.fresh ++ [(w.block, none)] }

/-! ## Requests (R93) -/

/-- All waiting requests of a tile. -/
def requests (t : Tile) : List Request := t.loanQ ++ t.takeQ ++ t.passQ

/-- Remove the requests of a lamp (R69, R99). -/
def cancelRequests (l : Nat) (t : Tile) : Tile :=
  let keep := fun (q : Request) => q.lamp.val != l
  { t with loanQ := t.loanQ.filter keep, takeQ := t.takeQ.filter keep, passQ := t.passQ.filter keep }

/-- Whether some claim or take waits (R302). -/
def claimWaits (t : Tile) : Bool := (t.loanQ ++ t.takeQ).any (fun q => q.kind == .claim || q.kind == .take || q.kind == .dispatch)

/-- A request at its place in the order of issue (R93). -/
def inOrder (q : Request) (qs : List Request) : List Request := insertBy (fun a b => decide (a.stamp < b.stamp)) q qs

/-- Whether nothing in the loan queue was issued before a request (R93). -/
def firstLoan (t : Tile) (stamp : Nat) : Bool := t.loanQ.all (fun q => decide (stamp ≤ q.stamp))

/-- Enter a request in the loan queue at its place in the order of issue (R93). -/
def enterLoan (q : Request) (t : Tile) : Tile := { t with loanQ := inOrder q t.loanQ }

/-! ## The register file (R72) -/

/-- A register as it stands, none where its bank is unmapped. -/
def vreg (t : Tile) (l n : Nat) : Option V128 :=
  match (lampAt t l).bank (n / 8) with
  | some w => some (SMap.getD t.ws (w.block * 8 + n % 8) 0)
  | none => none

/-- Write a register of a mapped bank. -/
def putVreg (l n : Nat) (v : V128) (t : Tile) : Tile :=
  match (lampAt t l).bank (n / 8) with
  | some w => storeSlot (w.block * 8 + n % 8) v t
  | none => t

/-! ## The status word (R70) -/

def LampState.code : LampState → Nat
  | .stopped => 0
  | .flashed => 1
  | .running => 2
  | .blocked => 3
  | .draining => 4
  | .faulted => 5

def LampWait.code : LampWait → Nat
  | .none => 0
  | .claim => 1
  | .take => 2
  | .pass => 3
  | .linkRead => 4
  | .linkWrite => 5
  | .dispatch => 6

/-- Bits of four banks. -/
def bankBits (x : Lamp) (f : WsPtr → Bool) : Nat :=
  sumN (upTo 4 (fun b => match vget x.ptrs b none with | some w => ofBool (f w) * 2 ^ b | none => 0))

/-- The status word (R70). -/
def statusWord (x : Lamp) : W64 :=
  BitVec.ofNat 64 (ofBool x.drain * 2 ^ 43 + x.fifo.length * 2 ^ 41 + x.bundle.toNat * 2 ^ 38 + x.block.toNat * 2 ^ 25
    + ofBool x.rep.isSome * 2 ^ 24 + bankBits x (fun w => w.loan) * 2 ^ 20 + bankBits x (fun _ => true) * 2 ^ 16
    + x.wait.code * 2 ^ 13 + x.group.toNat * 2 ^ 11 + x.slot.toNat * 2 ^ 8 + x.cause.toNat * 2 ^ 4 + x.st.code)

/-! ## Results and faults of operations -/

/-- What one lamp operation comes to: an effect; a fault with what stands in spite of it (R54, R61); or a wait, with the
request entered (R194). -/
inductive OpRes where
  | ok (s : State)
  | fault (cause : Nat) (s : State)
  | wait (s : State)

/-- Put a lamp in FAULTED (R98, R102): its operations are held, its fault bit in EVENTS is set. -/
def lampFault (r l slot cause : Nat) (s : State) : State :=
  modTile s r (fun t => setEvent l (modLamp l (fun x =>
    { x.pause s.cycle with st := .faulted, wait := .none, cause := BitVec.ofNat 4 cause, slot := BitVec.ofNat 3 slot })
    (cancelRequests l t)))

/-- The lamp and tile of the operation in execution. -/
def opTile (s : State) : Nat := s.bundle.tile.val
def opLamp (s : State) : Nat := s.bundle.lamp.val
def theTile (s : State) : Tile := tileOf s (opTile s)
def theLamp (s : State) : Lamp := lampAt (theTile s) (opLamp s)
def modThe (s : State) (f : Lamp → Lamp) : State := modTile s (opTile s) (modLamp (opLamp s) f)

/-- Whether an operation in flight is an SRAM or accumulator access still to be performed. -/
def InFlight.pending (o : InFlight) : Bool := o.mem && o.access.isSome

/-- Whether an access in flight took effect before a clk (R195): its result is there `lat` clk after it. -/
def InFlight.tookEffect (now : Nat) (o : InFlight) : Bool :=
  !o.pending && (match o.ready with | some n => decide (n < now + o.lat) | none => false)

/-- The outcome of an operation by itself. -/
def runOp (x : OpRes) (s : State) : Out :=
  match x with
  | .ok s' => .next s'
  | .wait s' => .next s'
  | .fault c s' => .next (lampFault (opTile s) (opLamp s) s.bundle.slot.toNat c s')

/-- Put an operation in flight (R76): `outs` are the result ports, u times 4 plus k (R114). -/
def putFlight (lat : Nat) (mk : InFlight → InFlight) (s : State) : State :=
  let g := lampGap (theTile s)
  modThe s (fun x =>
    let o : InFlight :=
      { serial := x.serial, unit := 0, since := s.cycle, due := s.cycle + lat * g, ready := some (s.cycle + lat * g),
        lat := lat, outs := [], flags := 0, mem := false, access := none, left := [], counted := false }
    { x with serial := x.serial + 1, flight := x.flight ++ [mk o] })

/-- An operation that delivers results and flags after its latency and touches nothing else (R135, R156). -/
def deliver (u lat : Nat) (outs : List (Nat × V128)) (flags : Nat) (s : State) : OpRes :=
  .ok (putFlight lat (fun o => { o with unit := u, outs := outs, flags := BitVec.ofNat 32 flags }) s)

/-- The lamp's mode bits (R59). -/
def invTrap (s : State) : Bool := (theLamp s).mode.getLsbD 1
def ftzDaz (s : State) : Bool := (theLamp s).mode.getLsbD 0

/-- OR flags into a lamp's flags word. -/
def orFlags (f : Nat) (x : Lamp) : Lamp := { x with flags := x.flags ||| BitVec.ofNat 32 f }

/-- Results with flags, or INVALID where invalid is trapped (R61). -/
def deliverOrTrap (u lat : Nat) (outs : List (Nat × V128)) (flags : Nat) (s : State) : OpRes :=
  if invTrap s && flags % 2 == 1 then .fault 13 (modThe s (orFlags 1))
  else deliver u lat outs flags s

end Sys2Proof.Machine
end

