-- ==== Sys2Proof/Machine/Acc.lean ====
section
/-! DEFINITION. Accumulator rows: clearing (R327), release of a held row (R97, R328), and the end of a drain handler. -/

namespace Sys2Proof.Machine

/-- The bank of a row id (R181). -/
def bankOfRow (s : State) (c row : Nat) : Bank := SMap.getD (lensOf s c).banks (row / 32) Bank.reset

/-- The 64 words of a cleared RANK row with list limit k (R327, R330). -/
def emptyList (k : Nat) : List W32 :=
  (List.replicate 31 [0xFF800000#32, 0xFFFFFFFF#32]).flatten ++ [0xFF800000#32, BitVec.ofNat 32 (k * 64)]

/-- Store words of an accumulator row from word `w` up. -/
def putAccWords (c row w : Nat) (vs : List W32) (s : State) : State :=
  modLens s c (fun x => { x with
    words := vs.zipIdx.foldl (fun m p => SMap.insert m (row * 64 + w + p.2) p.1) x.words })

/-- A word of accumulator memory by row id and word. -/
def accWord (s : State) (c row w : Nat) : W32 := SMap.getD (lensOf s c).words (row * 64 + w) 0

/-- Clear a row in its own mode (R327). -/
def clearRow (c row : Nat) (s : State) : State :=
  let b := bankOfRow s c row
  putAccWords c row 0 (if b.st = .rank then emptyList b.k else List.replicate 64 0) s

/-- Whether the DRAIN of a command clears its rows (R349). -/
def drainClears (c : KCmd) : Bool := bit c.d1 34

/-- Release a held row of the tile at a position (R97, R328): its DRAIN counts it, and one stopped by LSTOP makes it FAULT
and clears nothing. -/
def releaseRow (c pos row : Nat) (byStop : Bool) (s : State) : State :=
  let clears := (lensOf s c).accepted.any (fun x => x.tile == pos && x.out.contains row && drainClears x.cmd)
  let s := if clears && !byStop then clearRow c row s else s
  modLens s c (fun x => { x with
    held := x.held.filter (fun h => h.1 != row),
    accepted := x.accepted.map (fun a =>
      if a.tile = pos ∧ a.out.contains row then
        { a with out := a.out.filter (fun y => y != row), done := a.done + 1,
                 stopped := if byStop then some (Nat.min row (a.stopped.getD row)) else a.stopped }
      else a) })

/-- The release of a drain handler (R97): banks 2 and 3 are given back, the drain bit clears, the row is released. -/
def releaseHandler (r l : Nat) (byStop : Bool) (s : State) : State :=
  let x := lampAt (tileOf s r) l
  if !x.drain then s
  else
    let s := modTile s r (fun t =>
      modLamp l (fun x => { x with drain := false, row := none }) (giveBank l 3 (giveBank l 2 t)))
    match x.row with
    | none => s
    | some row => releaseRow (clusterOf r) (posOf r) row byStop s

/-- A lamp stops (R79, R190, R300): what it has fetched and its repetition end; a handler is released. -/
def stopLamp (r l : Nat) (byStop : Bool) (s : State) : State :=
  releaseHandler r l byStop (modTile s r (modLamp l (fun x =>
    { x with st := .stopped, wait := .none, fetched := none, rep := none })))

end Sys2Proof.Machine
end

