-- ==== Sys2Proof/Machine/Float.lean ====
section
/-! DEFINITION. Number formats (R24 to R33) and the arithmetic rules: rounding, overflow on narrowing, NaNs, flags
(R46 to R61), on-arrival adds (R66). A finite value is kept exactly as mantissa times a power of two. -/

namespace Sys2Proof.Machine

/-- Which encodings of a format are no numbers (R24): an infinity and NaNs, one NaN fraction, or none. -/
inductive FKind where | ieee | oneNan | plain
  deriving DecidableEq, Repr

/-- The fields of a floating-point format (R24): exponent bits, fraction bits, bias. -/
structure Fmt where
  eb : Nat
  m : Nat
  bias : Nat
  kind : FKind
  deriving DecidableEq, Repr

def fp32 : Fmt := ⟨8, 23, 127, .ieee⟩
def fp16 : Fmt := ⟨5, 10, 15, .ieee⟩
def bf16 : Fmt := ⟨8, 7, 127, .ieee⟩
def e4m3 : Fmt := ⟨4, 3, 7, .oneNan⟩
def e5m2 : Fmt := ⟨5, 2, 15, .ieee⟩
def e2m1 : Fmt := ⟨2, 1, 1, .plain⟩

/-- Width of an item of the format. -/
def Fmt.width (f : Fmt) : Nat := 1 + f.eb + f.m

/-- A value (R25, R26): a NaN keeps its sign, fraction field, fraction width, and whether it signals; a finite value is
(-1)^sign times mant times 2^exp, with exp the place of the item's last significand bit. -/
inductive FVal where
  | nan (sign : Bool) (frac m : Nat) (sig : Bool)
  | inf (sign : Bool)
  | fin (sign : Bool) (mant : Nat) (exp : Int)
  deriving DecidableEq, Repr

def FVal.isNan : FVal → Bool
  | .nan .. => true
  | _ => false

def FVal.isSig : FVal → Bool
  | .nan _ _ _ s => s
  | _ => false

def FVal.isInf : FVal → Bool
  | .inf _ => true
  | _ => false

def FVal.isZero : FVal → Bool
  | .fin _ m _ => m == 0
  | _ => false

def FVal.sign : FVal → Bool
  | .nan s _ _ _ => s
  | .inf s => s
  | .fin s _ _ => s

/-- The value with its sign flipped where `b` holds. -/
def FVal.flip (b : Bool) : FVal → FVal
  | .nan s f m g => .nan (xor s b) f m g
  | .inf s => .inf (xor s b)
  | .fin s m e => .fin (xor s b) m e

/-- The exponent of the last place of a subnormal (R25). -/
def Fmt.eminQ (f : Fmt) : Int := 1 - (f.bias : Int) - (f.m : Int)

/-- The value of an encoding (R24, R25). -/
def Fmt.decode (f : Fmt) (x : Nat) : FVal :=
  let fr := x % 2 ^ f.m
  let e := x / 2 ^ f.m % 2 ^ f.eb
  let s := x / 2 ^ (f.m + f.eb) % 2 == 1
  let top := 2 ^ f.eb - 1
  match f.kind with
  | .ieee =>
    if e = top then
      if fr = 0 then .inf s
      else .nan s fr f.m (f.m != 2 && fr / 2 ^ (f.m - 1) % 2 == 0)
    else if e = 0 then .fin s fr f.eminQ
    else .fin s (2 ^ f.m + fr) ((e : Int) - f.bias - f.m)
  | .oneNan =>
    if e = top ∧ fr = 2 ^ f.m - 1 then .nan s fr f.m false
    else if e = 0 then .fin s fr f.eminQ
    else .fin s (2 ^ f.m + fr) ((e : Int) - f.bias - f.m)
  | .plain =>
    if e = 0 then .fin s fr f.eminQ
    else .fin s (2 ^ f.m + fr) ((e : Int) - f.bias - f.m)

/-- Whether an encoding is subnormal or zero. -/
def Fmt.expZero (f : Fmt) (x : Nat) : Bool := x / 2 ^ f.m % 2 ^ f.eb == 0

/-- The value with a subnormal read as the zero of its sign where ftz_daz holds (R59). -/
def Fmt.decodeDaz (f : Fmt) (daz : Bool) (x : Nat) : FVal :=
  if daz && f.expZero x then .fin (x / 2 ^ (f.m + f.eb) % 2 == 1) 0 f.eminQ else f.decode x

/-- The sign bit at its place. -/
def Fmt.signBit (f : Fmt) (s : Bool) : Nat := ofBool s * 2 ^ (f.m + f.eb)

/-- The largest finite magnitude (R24). -/
def Fmt.maxMag (f : Fmt) : Nat :=
  match f.kind with
  | .ieee => (2 ^ f.eb - 2) * 2 ^ f.m + (2 ^ f.m - 1)
  | .oneNan => (2 ^ f.eb - 1) * 2 ^ f.m + (2 ^ f.m - 2)
  | .plain => (2 ^ f.eb - 1) * 2 ^ f.m + (2 ^ f.m - 1)

/-- The infinity of a format that has one. -/
def Fmt.infMag (f : Fmt) : Nat := (2 ^ f.eb - 1) * 2 ^ f.m

/-- The canonical NaN (R27); E2M1 has none. -/
def Fmt.canonNan (f : Fmt) : Nat :=
  match f.kind with
  | .ieee => (2 ^ f.eb - 1) * 2 ^ f.m + 2 ^ (f.m - 1)
  | .oneNan => (2 ^ f.eb - 1) * 2 ^ f.m + (2 ^ f.m - 1)
  | .plain => f.maxMag

/-- A NaN result (R57): sign kept, payload at the top of the fraction field, quiet; E4M3 and E5M2 NaNs have one
fraction. -/
def Fmt.quietNan (f : Fmt) (s : Bool) (frac m : Nat) : Nat :=
  let moved := if m ≤ f.m then frac * 2 ^ (f.m - m) else frac / 2 ^ (m - f.m)
  match f.kind with
  | .ieee =>
    if f.m == 2 then f.signBit s + f.infMag + 2
    else f.signBit s + f.infMag + (moved % 2 ^ (f.m - 1) + 2 ^ (f.m - 1))
  | .oneNan => f.signBit s + f.canonNan
  | .plain => f.maxMag

/-! ## Rounding (R46, R50) -/

/-- A rounding mode of R46, or stochastic rounding with its random word (R50). -/
inductive Rnd where | rne | rtz | rdn | rup | sr (w : W32)
  deriving DecidableEq, Repr

/-- The mode of a 2-bit code (R46). -/
def rndOf (c : Nat) : Rnd :=
  match c % 4 with
  | 0 => .rne
  | 1 => .rtz
  | 2 => .rdn
  | _ => .rup

/-- Floor of the binary logarithm of a positive mant times 2^exp. -/
def floorLog2 (mant : Nat) (exp : Int) : Int := (Nat.log2 mant : Int) + exp

/-- Round mant times 2^exp to a multiple of 2^q: the multiple and whether it differs. -/
def roundAt (r : Rnd) (s : Bool) (mant : Nat) (exp q : Int) : Nat × Bool :=
  let d := q - exp
  if d ≤ 0 then (mant * 2 ^ (-d).toNat, false)
  else
    let k := d.toNat
    let n := mant / 2 ^ k
    let rem := mant % 2 ^ k
    let up : Bool := match r with
      | .rne => decide (2 * rem > 2 ^ k) || (decide (2 * rem = 2 ^ k) && n % 2 == 1)
      | .rtz => false
      | .rdn => s && decide (rem ≠ 0)
      | .rup => !s && decide (rem ≠ 0)
      | .sr w =>
        let dd := Nat.min k 32
        let f := if k ≤ 32 then rem else rem / 2 ^ (k - 32)
        decide (f > w.toNat / 2 ^ (32 - dd))
    (if up then n + 1 else n, decide (rem ≠ 0))

/-- Flag bits of R60. -/
def flInvalid : Nat := 1
def flDivZero : Nat := 2
def flOverflow : Nat := 4
def flUnderflow : Nat := 8
def flInexact : Nat := 16
def flNarrowSat : Nat := 32

/-- The place of the last significand bit of a result (R46): the destination's precision, not below the subnormal
spacing. -/
def Fmt.quantum (f : Fmt) (mant : Nat) (exp : Int) : Int := max (floorLog2 mant exp - f.m) f.eminQ

/-- The magnitude encoding of n times 2^q after rounding, none where it exceeds the largest finite value. -/
def Fmt.encodeMag (f : Fmt) (n : Nat) (q : Int) : Option Nat :=
  let (n, q) := if n = 2 ^ (f.m + 1) then (2 ^ f.m, q + 1) else (n, q)
  let mag := if n < 2 ^ f.m then n
    else (q + f.m + f.bias).toNat * 2 ^ f.m + (n - 2 ^ f.m)
  if mag ≤ f.maxMag then some mag else none

/-- The result of rounding a non-zero finite value: its magnitude encoding (none on overflow) and the flags inexact and
underflow; tininess is detected before rounding (R56). -/
def Fmt.roundFin (f : Fmt) (r : Rnd) (s : Bool) (mant : Nat) (exp : Int) : Option Nat × Nat :=
  let q := f.quantum mant exp
  let (n, inex) := roundAt r s mant exp q
  let tiny := decide (floorLog2 mant exp < 1 - (f.bias : Int))
  (f.encodeMag n q, if inex then flInexact ||| (if tiny then flUnderflow else 0) else 0)

/-- An arithmetic result of FP32, FP16 or BF16 (R46): overflow as IEEE 754 prescribes for the mode. -/
def Fmt.roundArith (f : Fmt) (r : Rnd) (s : Bool) (mant : Nat) (exp : Int) : Nat × Nat :=
  match f.roundFin r s mant exp with
  | (some mag, fl) => (f.signBit s + mag, fl)
  | (none, _) =>
    let toInf : Bool := match r with
      | .rne => true
      | .rtz => false
      | .rdn => s
      | .rup => !s
      | .sr _ => true
    (f.signBit s + (if toInf then f.infMag else f.maxMag), flOverflow ||| flInexact)

/-- Ftz (R59): a subnormal result becomes the zero of its sign and sets underflow and inexact. -/
def Fmt.ftz (f : Fmt) (on : Bool) (x fl : Nat) : Nat × Nat :=
  if on && f.expZero x && x % 2 ^ f.m != 0 then (x / 2 ^ (f.m + f.eb) * 2 ^ (f.m + f.eb), fl ||| flUnderflow ||| flInexact)
  else (x, fl)

/-! ## Exact sums and products -/

/-- The signed integer of a finite value in units of 2^e, for e not above its exponent. -/
def scaledInt (s : Bool) (mant : Nat) (exp e : Int) : Int :=
  let n : Int := (mant * 2 ^ (exp - e).toNat : Nat)
  if s then -n else n

/-- The exact product of two finite values. -/
def mulFin (s1 : Bool) (m1 : Nat) (e1 : Int) (s2 : Bool) (m2 : Nat) (e2 : Int) : Bool × Nat × Int :=
  (xor s1 s2, m1 * m2, e1 + e2)

/-- The rounded sum of two finite values (R58): an exact zero of operands of opposite sign is +0, and -0 in RDN; two zeros
of one sign give that zero. -/
def Fmt.addFin (f : Fmt) (r : Rnd) (s1 : Bool) (m1 : Nat) (e1 : Int) (s2 : Bool) (m2 : Nat) (e2 : Int) : Nat × Nat :=
  let e := min e1 e2
  let n := scaledInt s1 m1 e1 e + scaledInt s2 m2 e2 e
  if n = 0 then
    let s := if s1 = s2 then s1 else decide (r = .rdn)
    (f.signBit s, 0)
  else f.roundArith r (decide (n < 0)) n.natAbs e

/-- A multiply-add lane of R158: x times y with sign flips sp and sc, and the addend z where there is one; the result
encoding and flags. -/
def Fmt.fmLane (f : Fmt) (r : Rnd) (ftzOn : Bool) (sp sc : Bool) (x y : FVal) (z : Option FVal) : Nat × Nat :=
  let zi := (x.isZero && y.isInf) || (x.isInf && y.isZero)
  let firstNan : Option FVal :=
    match z with
    | some (.nan s g m q) => some (.nan s g m q)
    | _ => if x.isNan then some x else if y.isNan then some y else none
  match firstNan with
  | some (.nan s g m _) =>
    let sig := x.isSig || y.isSig || (match z with | some v => v.isSig | none => false)
    (f.quietNan s g m, if sig || zi then flInvalid else 0)
  | _ =>
    if zi then (f.canonNan, flInvalid)
    else
      let ps := xor (xor x.sign y.sign) sp
      match x, y with
      | .fin s1 m1 e1, .fin s2 m2 e2 =>
        let (s, m, e) := mulFin s1 m1 e1 s2 m2 e2
        let s := xor s sp
        match z with
        | none =>
          if m = 0 then (f.signBit s, 0)
          else
            let (v, fl) := f.roundArith r s m e
            f.ftz ftzOn v fl
        | some (.fin s3 m3 e3) =>
          let (v, fl) := f.addFin r s m e (xor s3 sc) m3 e3
          f.ftz ftzOn v fl
        | some v => (f.signBit (xor v.sign sc) + f.infMag, 0)
      | _, _ =>
        match z with
        | some (.inf s3) =>
          if xor s3 sc = ps then (f.signBit ps + f.infMag, 0) else (f.canonNan, flInvalid)
        | _ => (f.signBit ps + f.infMag, 0)

/-- Order of finite values and infinities with -0 below +0 where `zeros` says so; NaNs excluded. -/
def ltVal (zeros : Bool) (x y : FVal) : Bool :=
  match x, y with
  | .inf s, .inf s' => s && !s'
  | .inf s, .fin _ _ _ => s
  | .fin _ _ _, .inf s => !s
  | .fin s m e, .fin s' m' e' =>
    let q := min e e'
    let a := scaledInt s m e q
    let b := scaledInt s' m' e' q
    decide (a < b) || (zeros && decide (a = b) && decide (a = 0) && s && !s')
  | _, _ => false

/-- Equality of values with -0 equal to +0; a NaN equals nothing. -/
def eqVal (x y : FVal) : Bool :=
  match x, y with
  | .inf s, .inf s' => s == s'
  | .fin s m e, .fin s' m' e' =>
    let q := min e e'
    decide (scaledInt s m e q = scaledInt s' m' e' q)
  | _, _ => false

/-- `min` and `max` of a lane (R160). -/
def Fmt.minMax (f : Fmt) (wantMax daz : Bool) (xa xt : Nat) : Nat × Nat :=
  let a := f.decodeDaz daz xa
  let t := f.decodeDaz daz xt
  let keep (x : Nat) : Nat :=
    if daz && f.expZero x then x / 2 ^ (f.m + f.eb) * 2 ^ (f.m + f.eb) else x
  let fl := if a.isSig || t.isSig then flInvalid else 0
  match a, t with
  | .nan s g m _, .nan .. => (f.quietNan s g m, fl)
  | .nan .., _ => (keep xt, fl)
  | _, .nan .. => (keep xa, fl)
  | _, _ =>
    let less := ltVal true a t
    (if (if wantMax then less else !less) then keep xt else keep xa, fl)
-- with equal operands either choice gives the same bits

/-! ## Conversions (R51 to R57, R167, R168) -/

/-- The numeric types that a format code or a lamp conversion names (R30). -/
inductive NumTy where
  | flt (f : Fmt)
  | int (signed : Bool) (w : Nat)
  | mxi8
  deriving DecidableEq, Repr

/-- The type of an element format code (R30); none for PX8 and the reserved codes. -/
def fmtCode (c : Nat) : Option NumTy :=
  match c with
  | 0x0 => some (.flt e2m1)
  | 0x1 => some (.flt e4m3)
  | 0x2 => some (.flt e5m2)
  | 0x3 => some (.int true 4)
  | 0x4 => some (.int true 8)
  | 0x5 => some (.flt bf16)
  | 0x6 => some (.flt fp16)
  | 0x7 => some (.flt fp32)
  | 0x8 => some (.int true 16)
  | 0x9 => some (.int true 32)
  | 0xA => some (.int false 8)
  | 0xC => some .mxi8
  | _ => none

/-- The width of an element. -/
def NumTy.width : NumTy → Nat
  | .flt f => f.width
  | .int _ w => w
  | .mxi8 => 8

/-- The value of an element (R25, R28, R33). -/
def NumTy.decode (t : NumTy) (daz : Bool) (x : Nat) : FVal :=
  match t with
  | .flt f => f.decodeDaz daz x
  | .int true w => let v := signedN w x; .fin (decide (v < 0)) v.natAbs 0
  | .int false w => .fin false (x % 2 ^ w) 0
  | .mxi8 => let v := signedN 8 x; .fin (decide (v < 0)) v.natAbs (-6)

/-- Whether a conversion of an infinity is exact: FP32 holds it, and BF16 and FP16 hold that of E5M2 (R168). -/
def infWidens (src : NumTy) (f : Fmt) : Bool :=
  f == fp32 || (src == .flt e5m2 && (f == bf16 || f == fp16)) || src == .flt f

/-- The result of one conversion: the element, its flags, and whether it overflowed under TRAP (R54). -/
structure Conv where
  bits : Nat
  flags : Nat
  trap : Bool
  deriving DecidableEq, Repr

/-- A SAT replacement, or the overflow that TRAP reports (R52, R54, R60). -/
def satConv (trap : Bool) (v fl : Nat) : Conv :=
  if trap then ⟨0, fl, true⟩ else ⟨v, fl ||| flNarrowSat ||| flInexact, false⟩

/-- Convert a value to a float format (R46, R50 to R53, R57). -/
def toFloat (src : NumTy) (f : Fmt) (r : Rnd) (trap ftzOn : Bool) (v : FVal) : Conv :=
  match v with
  | .nan s g m sig =>
    let fl := if sig then flInvalid else 0
    if f.kind = .plain then satConv trap f.maxMag fl else ⟨f.quietNan s g m, fl, false⟩
  | .inf s =>
    match f.kind with
    | .ieee =>
      if infWidens src f || trap then ⟨f.signBit s + f.infMag, 0, false⟩
      else satConv false (f.signBit s + f.maxMag) 0
    | _ => satConv trap (f.signBit s + f.maxMag) 0
  | .fin s m e =>
    if m = 0 then ⟨f.signBit s, 0, false⟩
    else
      match f.roundFin r s m e with
      | (some mag, fl) =>
        let (x, fl) := f.ftz ftzOn (f.signBit s + mag) fl
        ⟨x, fl, false⟩
      | (none, _) => satConv trap (f.signBit s + f.maxMag) 0

/-- Convert a value to an integer type (R53, R55). -/
def toInt (signed : Bool) (w : Nat) (r : Rnd) (trap : Bool) (v : FVal) : Conv :=
  let lo : Int := if signed then -((2 ^ (w - 1) : Nat) : Int) else 0
  let hi : Int := if signed then ((2 ^ (w - 1) : Nat) : Int) - 1 else ((2 ^ w : Nat) : Int) - 1
  let enc (x : Int) : Nat := (x % ((2 ^ w : Nat) : Int)).toNat
  match v with
  | .nan _ _ _ sig => satConv trap 0 (if trap then (if sig then flInvalid else 0) else flInvalid)
  | .inf s => satConv trap (enc (if s then lo else hi)) (if trap then 0 else flInvalid)
  | .fin s m e =>
    let (n, inex) := roundAt r s m e 0
    let x : Int := if s then -(n : Int) else n
    if x < lo ∨ hi < x then satConv trap (enc (if s then lo else hi)) (if trap then 0 else flInvalid)
    else ⟨enc x, if inex then flInexact else 0, false⟩

/-- Convert one element between types (R51 to R57, R167, R168). -/
def convert (src dst : NumTy) (r : Rnd) (trap daz ftzOn : Bool) (x : Nat) : Conv :=
  let v := src.decode daz x
  match dst with
  | .flt f => toFloat src f r trap ftzOn v
  | .int s w => toInt s w r trap v
  | .mxi8 => toInt true 8 r trap (match v with | .fin s m e => .fin s m (e + 6) | v => v)

/-! ## Adds applied on arrival and atomics (R66) -/

/-- One on-arrival add of floats: RNE, subnormals kept, NaN results canonical; the flags that a lamp atomic sets. -/
def Fmt.arrivalAdd (f : Fmt) (x y : Nat) : Nat × Nat :=
  let a := f.decode x
  let b := f.decode y
  if a.isNan || b.isNan then (f.canonNan, if a.isSig || b.isSig then flInvalid else 0)
  else f.fmLane .rne false false false a (.fin false 1 0) (some b)

/-- The element types of RECV.ADD, REDUCE and the lamp atomics (R66, R277, R310). -/
inductive AddTy where | f32 | bf16 | s32
  deriving DecidableEq, Repr

/-- Width in bytes. -/
def AddTy.bytes : AddTy → Nat
  | .f32 => 4
  | .bf16 => 2
  | .s32 => 4

/-- One element add. -/
def AddTy.add (t : AddTy) (x y : Nat) : Nat × Nat :=
  match t with
  | .f32 => fp32.arrivalAdd x y
  | .bf16 => Fmt.arrivalAdd Sys2Proof.Machine.bf16 x y
  | .s32 => ((x + y) % 2 ^ 32, 0)

end Sys2Proof.Machine
end

