-- ==== Sys2Proof/Machine/Px8.lean ====
section
/-! DEFINITION. Block scales and PX8 streams (R31 to R39, R172, R290). A bit string is a list of Bool, position 0 first. -/

namespace Sys2Proof.Machine

/-- The value of an SC10 scale (R31): none for NaN, otherwise mant times 2^exp. -/
def sc10Val (x : Nat) : Option (Nat × Int) :=
  let e := x / 4 % 256
  if e = 255 then none else some (4 + x % 4, (e : Int) - 127 - 2)

/-- The SC10 scale of an E8M0 scale (R32). -/
def e8m0ToSc10 (x : Nat) : Nat := x % 256 * 4

/-- The bits of a number, least significant first. -/
def bitsOf : Nat → Nat → List Bool
  | 0, _ => []
  | n + 1, x => (x % 2 == 1) :: bitsOf n (x / 2)

/-- The number of a bit string, least significant first. -/
def numOf : List Bool → Nat
  | [] => 0
  | b :: bs => ofBool b + 2 * numOf bs

/-- The bits of a byte string (R35). -/
def byteBits (bs : List Byte) : List Bool := bs.flatMap (fun b => bitsOf 8 b.toNat)

/-- The bytes of a bit string, with fuel for its length. -/
def bitsBytesAux : Nat → List Bool → List Byte
  | 0, _ => []
  | _ + 1, [] => []
  | n + 1, bs => BitVec.ofNat 8 (numOf (bs.take 8)) :: bitsBytesAux n (bs.drop 8)

/-- The bytes of a bit string. -/
def bitsBytes (bs : List Bool) : List Byte := bitsBytesAux bs.length bs

/-- The exponent token of d (R36). -/
def px8Token (d : Nat) : List Bool :=
  if d = 0 then [false]
  else if d = 1 then [true, false]
  else if d = 2 then [true, true, false]
  else if d = 3 then [true, true, true, false, false]
  else if d = 4 then [true, true, true, false, true]
  else [true, true, true, true] ++ (bitsOf 4 (d - 5)).reverse

/-- The bits of one block of 32 E4M3 elements with its scale (R38). -/
def px8EncodeBlock (xs : List Nat) (scale : Nat) : List Bool :=
  let emax := maxN (xs.map (fun x => x / 8 % 16))
  let body := bitsOf 10 scale ++ bitsOf 4 emax
    ++ xs.flatMap (fun x => bitsOf 4 (x / 128 % 2 * 8 + x % 8))
    ++ xs.flatMap (fun x => px8Token (emax - x / 8 % 16))
  body ++ List.replicate ((16 - body.length % 16) % 16) false

/-- A decoded block: elements, scale, emax and its length with pad. -/
structure Px8Block where
  elems : List Nat
  scale : Nat
  emax : Nat
  len : Nat
  deriving DecidableEq, Repr

/-- Read one token: d and the bits after it; none for a reserved suffix or where the bits end. -/
def px8ReadToken (bs : List Bool) : Option (Nat × List Bool) :=
  match bs with
  | false :: r => some (0, r)
  | true :: false :: r => some (1, r)
  | true :: true :: false :: r => some (2, r)
  | true :: true :: true :: false :: b :: r => some (if b then 4 else 3, r)
  | true :: true :: true :: true :: a :: b :: c :: d :: r =>
    let n := numOf [d, c, b, a]
    if n ≤ 10 then some (n + 5, r) else none
  | _ => none

/-- Read `n` tokens. -/
def px8ReadTokens : Nat → List Bool → Option (List Nat × List Bool)
  | 0, bs => some ([], bs)
  | n + 1, bs =>
    match px8ReadToken bs with
    | none => none
    | some (d, r) =>
      match px8ReadTokens n r with
      | none => none
      | some (ds, r') => some (d :: ds, r')

/-- Decode the block at the front of a bit string (R39): none where it is malformed or the bits end before its pad. -/
def px8DecodeBlock (bs : List Bool) : Option (Px8Block × List Bool) :=
  if bs.length < 142 then none
  else
    let scale := numOf (bs.take 10)
    let emax := numOf ((bs.drop 10).take 4)
    let nibs := (List.range 32).map (fun i => numOf ((bs.drop (14 + 4 * i)).take 4))
    match px8ReadTokens 32 (bs.drop 142) with
    | none => none
    | some (ds, rest) =>
      if ds.any (fun d => decide (emax < d)) then none
      else
        let used := bs.length - rest.length
        let len := roundUp used 16
        if bs.length < len then none
        else
          let elems := (nibs.zip ds).map (fun p => p.1 / 8 * 128 + (emax - p.2) * 8 + p.1 % 8)
          some (⟨elems, scale, emax, len⟩, bs.drop len)

/-- Decode up to `n` blocks: the blocks before the first malformed one, and whether all were decoded. -/
def px8DecodeBlocks : Nat → List Bool → List Px8Block × Bool
  | 0, _ => ([], true)
  | n + 1, bs =>
    match px8DecodeBlock bs with
    | none => ([], false)
    | some (b, r) =>
      let (xs, ok) := px8DecodeBlocks n r
      (b :: xs, ok)

/-- The stream of encoded blocks: word count, words, zero bits to the end of the last word (R37). -/
def px8Stream (blocks : List (List Bool)) : List Byte :=
  let bs := blocks.flatten
  let words := ceilDiv bs.length 32
  leBytes 4 words ++ (bitsBytes (bs ++ List.replicate (words * 32 - bs.length) false))

/-- The bits of the words of a stream held in bytes: those the word count names and that are present (R37). -/
def px8StreamBits (bs : List Byte) : List Bool :=
  let n := leAt bs 0 4
  let present := (bs.length - 4) / 4
  byteBits ((bs.drop 4).take (4 * Nat.min n present))

/-- One element of a decoded block as BF16 with the block's scale (R172). -/
def px8Bf16Elem (r : Rnd) (trap ftzOn : Bool) (scale x : Nat) : Conv :=
  match e4m3.decode x with
  | .nan s g m _ => ⟨bf16.quietNan s g m, 0, false⟩
  | .inf s => ⟨bf16.signBit s + bf16.infMag, 0, false⟩
  | .fin s m e =>
    match sc10Val scale with
    | none => ⟨bf16.canonNan, 0, false⟩
    | some (sm, se) => toFloat (.flt fp32) bf16 r trap ftzOn (.fin s (m * sm) (e + se))

/-- Whether mant times 2^exp is at most the value of an SC10 scale times 448. -/
def fitsScale (mant : Nat) (exp : Int) (scale : Nat) : Bool :=
  match sc10Val scale with
  | none => true
  | some (sm, se) =>
    !(ltVal false (.fin false (448 * sm) se) (.fin false mant exp))

/-- The smallest SC10 value at least a/448, by search from a low encoding up (R290). -/
def scaleSearch (mant : Nat) (exp : Int) : Nat → Nat → Nat
  | 0, s => s
  | n + 1, s => if fitsScale mant exp s then s else scaleSearch mant exp n (s + 1)

/-- The scale that `.encbf` chooses for 32 BF16 elements (R290). -/
def px8ChooseScale (xs : List Nat) : Nat :=
  let big := xs.foldl (fun (acc : Option (Nat × Int)) x =>
    match bf16.decode x with
    | .fin _ m e =>
      match acc with
      | none => some (m, e)
      | some (m', e') => if ltVal false (.fin false m' e') (.fin false m e) then some (m, e) else acc
    | _ => acc) none
  match big with
  | none => 0x1FC
  | some (m, e) => if m = 0 then 0x1FC else scaleSearch m e 1020 0

/-- x / s narrowed to E4M3 (R290): the quotient is exact enough for rounding, with a sticky last bit. -/
def px8Narrow (r : Rnd) (trap : Bool) (scale x : Nat) : Conv :=
  match bf16.decode x with
  | .fin s m e =>
    if m = 0 then ⟨e4m3.signBit s, 0, false⟩
    else match sc10Val scale with
      | none => ⟨e4m3.canonNan, 0, false⟩
      | some (sm, se) =>
        let q := m * 2 ^ 40 / sm
        let st := if m * 2 ^ 40 % sm = 0 then 0 else 1
        toFloat (.flt bf16) e4m3 r trap false (.fin s (2 * q + st) (e - se - 41))
  | v => toFloat (.flt bf16) e4m3 r trap false v

/-- One block of 32 BF16 elements encoded (R290): none where an element overflows under TRAP. -/
def px8EncodeBf (r : Rnd) (trap : Bool) (xs : List Nat) : Option (List Bool) :=
  let s := px8ChooseScale xs
  let cs := xs.map (px8Narrow r trap s)
  if cs.any (fun c => c.trap) then none else some (px8EncodeBlock (cs.map (fun c => c.bits)) s)

end Sys2Proof.Machine
end

