-- ==== Sys2Proof/Machine/Descr.lean ====
section
/-! DEFINITION. Descriptors of the engine commands: reserved bits (R282), fields, the SRAM ranges a command names, and the
checks made at issue (R283, R289 to R295, R305, R340 to R354, R393). -/

namespace Sys2Proof.Machine

/-- A range of SRAM that a command may touch (R203, R215). -/
structure Rng where
  lo : Nat
  n : Nat
  write : Bool
  deriving DecidableEq, Repr

/-- Planes, side-item bytes and element width of a serial format (R40, R42); none where it has no plane layout. -/
def planeFmt (c : Nat) : Option (Nat × Nat × Nat) :=
  match c with
  | 0x0 => some (2, 1, 4)
  | 0x1 => some (4, 1, 8)
  | 0x2 => some (3, 1, 8)
  | 0x3 => some (4, 0, 4)
  | 0x4 => some (8, 0, 8)
  | 0x5 => some (8, 2, 16)
  | 0x6 => some (11, 2, 16)
  | 0xC => some (8, 0, 8)
  | _ => none

/-- The descriptor bits that an entry's table lists, by op: d0, d1, d2 and d3 without the third input token (R282). Where one
table serves several commands, a field that it gives to the others alone is reserved in a lens command and ignored in CP.ACC and
CP.TOPK; R282 says neither (log entry 102). -/
def descrMask (op : Nat) : W64 × W64 × W64 × W64 :=
  let addr2 := maskBits 0 21 ||| maskBits 32 21
  match op with
  | 0x3A => (addr2, maskBits 0 5 ||| maskBits 32 16, 0, 0)
  | 0x40 => (addr2, maskBits 0 22 ||| maskBits 32 16, addr2, 0)
  | 0x41 | 0x42 => (addr2, maskBits 0 21 ||| maskBits 32 16, addr2, 0)
  | 0x43 | 0x44 => (addr2, maskBits 0 21 ||| maskBits 32 16, maskBits 0 36, maskBits 0 21)
  | 0x45 => (addr2, maskBits 0 21 ||| maskBits 32 16, 0, 0)
  | 0x46 => (addr2, maskBits 0 32, maskBits 0 8, 0)
  | 0x47 | 0x48 =>
    (maskBits 0 12 ||| maskBits 16 13 ||| maskBits 32 21, maskBits 0 13 ||| maskBits 16 5 ||| maskBits 32 32,
      maskBits 0 26, 0)
  | 0x49 => (maskBits 32 21, maskBits 0 22, maskBits 0 64, 0)
  | 0x4C => (maskBits 0 6, maskBits 0 64, 0, 0)
  | 0x58 => (maskBits 0 21 ||| maskBits 32 9, 0, 0, 0)
  | 0x60 | 0x61 | 0x63 => (maskBits 0 33, maskBits 0 43, maskBits 0 21 ||| maskBits 32 22, 0)
  | 0x62 => (maskBits 0 33, maskBits 0 43, maskBits 0 21 ||| maskBits 32 22, maskBits 0 21)
  | 0x64 => (maskBits 0 33, maskBits 0 43, maskBits 0 21 ||| maskBits 32 22, maskBits 0 2)
  | 0x65 => (maskBits 0 33, maskBits 0 43, maskBits 0 21 ||| maskBits 32 22, maskBits 0 21 ||| maskBits 32 17)
  | 0x70 =>
    (addr2, maskBits 0 21 ||| maskBits 32 9 ||| maskBits 48 9, maskBits 0 31, 0)
  | 0x71 =>
    (addr2, maskBits 0 21 ||| maskBits 32 9 ||| maskBits 48 9, maskBits 0 31 ||| maskBits 32 21 ||| maskBits 54 2, 0)
  | 0x72 =>
    (addr2, maskBits 0 21 ||| maskBits 32 9 ||| maskBits 48 9, maskBits 0 27 ||| maskBits 32 22, maskBits 0 32)
  | 0x73 => (maskBits 0 12 ||| maskBits 16 13 ||| maskBits 32 21, maskBits 0 13, maskBits 0 21, 0)
  | 0x74 => (maskBits 0 12 ||| maskBits 16 13, 0, 0, 0)
  | 0x75 => (maskBits 0 12 ||| maskBits 16 13 ||| maskBits 32 21, 0, maskBits 0 21, 0)
  | 0x76 => (maskBits 0 12 ||| maskBits 16 13, maskBits 0 21 ||| maskBits 32 3, 0, 0)
  | 0x77 => (maskBits 0 7 ||| maskBits 8 8, 0, 0, 0)
  | 0x78 => (maskBits 0 7 ||| maskBits 8 8 ||| maskBits 16 3, 0, 0, 0)
  | _ => (0, 0, 0, 0)

/-- Whether a descriptor has a reserved bit set (R282). -/
def reservedSet (c : KCmd) : Bool :=
  let m := descrMask c.op.toNat
  c.d0 &&& ~~~ m.1 != 0 || c.d1 &&& ~~~ m.2.1 != 0 || c.d2 &&& ~~~ m.2.2.1 != 0
    || (c.d3 &&& maskBits 0 58) &&& ~~~ m.2.2.2 != 0

/-- The span of `n` rows of `w` bytes at a pitch. -/
def rowSpan (_ n pitch w : Nat) : Nat := if n = 0 ∨ w = 0 then 0 else (n - 1) * pitch + w

/-- The indices of an index list in SRAM (R288). -/
def indexList (m : Mem) (a n : Nat) : List Nat := (List.range n).map (fun i => Mem.load m (a + 4 * i) 4)

/-- The span that the rows of an index list touch, as lowest byte and length; rows with bit 31 set touch none (R215). -/
def indexSpan (base stride w : Nat) (idx : List Nat) : Nat × Nat :=
  let used := idx.filter (fun x => decide (x < 2 ^ 31))
  match used with
  | [] => (base, 0)
  | x :: xs =>
    let lo := xs.foldl Nat.min x
    let hi := maxN (x :: xs)
    (base + lo * stride, (hi - lo) * stride + w)

/-! ### Fields of the copy commands -/

def cSrc (c : KCmd) : Nat := fld c.d0 0 21
def cDst (c : KCmd) : Nat := fld c.d0 32 21
def cLo1 (c : KCmd) : Nat := fld c.d1 0 21
def cN (c : KCmd) : Nat := fld c.d1 32 16
def mvBytes (c : KCmd) : Nat := fld c.d1 0 22
def mvSst (c : KCmd) : Nat := fld c.d2 0 21
def mvDst (c : KCmd) : Nat := fld c.d2 32 21
def plK (c : KCmd) : Nat := fld c.d2 0 16
def plKs (c : KCmd) : Nat := fld c.d2 16 16
def plFmt (c : KCmd) : Nat := fld c.d2 32 4
def plPitch (c : KCmd) : Nat := fld c.d3 0 21
def cvN (c : KCmd) : Nat := fld c.d1 0 32
def cvSf (c : KCmd) : Nat := fld c.d2 0 4
def cvDf (c : KCmd) : Nat := fld c.d2 4 4
def acFirst (c : KCmd) : Nat := fld c.d0 0 12
def acRows (c : KCmd) : Nat := fld c.d0 16 13
def acC0 (c : KCmd) : Nat := fld c.d1 0 6
def acWds (c : KCmd) : Nat := fld c.d1 6 7
def acK (c : KCmd) : Nat := fld c.d1 16 5
def acBase (c : KCmd) : Nat := fld c.d1 32 32
def acPitch (c : KCmd) : Nat := fld c.d2 0 21
def acDf (c : KCmd) : Nat := fld c.d2 21 4
def acInt (c : KCmd) : Bool := bit c.d2 25

/-- The pairs that CP.TOPK writes per row (R294). -/
def topPairs (c : KCmd) : Nat := 2 * ceilDiv (acK c) 2

/-- The width of a format code in bits, 0 for none. -/
def codeWidth (x : Nat) : Nat := match fmtCode x with | some t => t.width | none => 0

/-- The destination formats of CP.ACC (R293). -/
def accDfOk (c : KCmd) : Bool := [0x1, 0x2, 0x4, 0x5, 0x6, 0x7, 0x8, 0x9, 0xA].contains (acDf c)

/-- Whether a CP.ACC is a raw copy (R293). -/
def accRaw (c : KCmd) : Bool := (acDf c == 0x7 && !acInt c) || (acDf c == 0x9 && acInt c)

/-! ### Fields of the compute commands (R341) -/

def lmApl (c : KCmd) : Nat := fld c.d0 0 21
def lmBel (c : KCmd) : Nat := fld c.d0 32 21
def lmSide (c : KCmd) : Nat := fld c.d1 0 21
def lmM (c : KCmd) : Nat := fld c.d1 32 9
def lmN (c : KCmd) : Nat := fld c.d1 48 9
def lmK (c : KCmd) : Nat := fld c.d2 0 16
def lmP (c : KCmd) : Nat := fld c.d2 16 4
def lmB0 (c : KCmd) : Nat := fld c.d2 20 7
def lmBp (c : KCmd) : Nat := fld c.d2 27 4
def lmAux (c : KCmd) : Nat := fld c.d2 32 21
def lmBnd (c : KCmd) : Bool := bit c.d2 53
/-- The kept count of LMMS. -/
def lmNk (c : KCmd) : Nat := 8 * (fld c.d2 54 2 + 1)
def lmCbase (c : KCmd) : Nat := fld c.d3 0 32
def lmSparse (c : KCmd) : Bool := c.op == 0x71
def lmRank (c : KCmd) : Bool := c.op == 0x72
def lmFa (c : KCmd) : Nat := fld c.fmta 0 4
def lmFb (c : KCmd) : Nat := fld c.fmtb 0 4

/-- Rows of B as stored (R341, R43). -/
def lmRowsB (c : KCmd) : Nat := if lmSparse c then lmNk c * lmK c / 48 else lmK c

/-- Side-array bytes per element of A, 0 for integers. -/
def lmSideW (c : KCmd) : Nat := match planeFmt (lmFa c) with | some (_, s, _) => s | none => 0

/-- Bytes of one metadata entry (R44). -/
def metaBytes (nk : Nat) : Nat := 4 * ceilDiv (nk * 6) 32

/-- Items of a scale array in bytes (R317). -/
def sclItem (w : W64) : Nat := if bit w 62 then 1 else 2

/-- The items a compute command loads, with the buffer each goes to: false A, true B (R315). -/
def lmItems (c : KCmd) : List (Bool × Nat × Nat) :=
  let m := lmM c
  let n := lmN c
  let k := lmK c
  [(false, lmApl c, lmP c * m * k / 8), (true, lmBel c, lmRowsB c * n * codeWidth (lmFb c) / 8)]
    ++ (if lmSideW c = 0 then [] else [(false, lmSide c, m * k * lmSideW c)])
    ++ (if bit c.scla 63 then [(false, fld c.scla 0 21, m * k / 32 * sclItem c.scla)] else [])
    ++ (if lmSparse c then [(true, lmAux c, metaBytes (lmNk c) * n * k / 48)] else [])
    ++ (if bit c.sclb 63 then [(true, fld c.sclb 0 21, k / 32 * n * sclItem c.sclb)] else [])
    ++ (if lmRank c && lmBnd c then [(true, lmAux c, 4 * ceilDiv n 64)] else [])

/-! ### Ranges -/

/-- The SRAM ranges that a copy, lens, spill or scan command names (R203), as they are checked at issue; the index list is read
as it stands. -/
def cmdRanges (m : Mem) (c : KCmd) : List Rng :=
  match c.op.toNat with
  | 0x3A => [⟨cSrc c, 4 * fld c.d1 0 5, false⟩, ⟨cDst c, 136, true⟩]
  | 0x40 =>
    [⟨cSrc c, rowSpan 0 (cN c) (mvSst c) (mvBytes c), false⟩, ⟨cDst c, rowSpan 0 (cN c) (mvDst c) (mvBytes c), true⟩]
  | 0x41 =>
    let sp := indexSpan (cSrc c) (mvDst c) (mvSst c) (indexList m (cLo1 c) (cN c))
    [⟨cLo1 c, 4 * cN c, false⟩, ⟨cDst c, cN c * mvSst c, true⟩, ⟨sp.1, sp.2, false⟩]
  | 0x42 =>
    let sp := indexSpan (cDst c) (mvDst c) (mvSst c) (indexList m (cLo1 c) (cN c))
    [⟨cLo1 c, 4 * cN c, false⟩, ⟨cSrc c, cN c * mvSst c, false⟩, ⟨sp.1, sp.2, true⟩]
  | 0x43 =>
    match planeFmt (plFmt c) with
    | none => []
    | some (w, s, ew) =>
      [⟨cSrc c, rowSpan 0 (cN c) (plPitch c) (ceilDiv (plKs c * ew) 8), false⟩, ⟨cDst c, w * cN c * plK c / 8, true⟩,
       ⟨cLo1 c / 16 * 16, if s = 0 then 0 else roundUp (cLo1 c % 16 + cN c * plK c * s) 16, true⟩]
  | 0x44 =>
    match planeFmt (plFmt c) with
    | none => []
    | some (w, s, ew) =>
      [⟨cSrc c, rowSpan 0 (cN c) (plPitch c) (ceilDiv (plKs c * ew) 8), true⟩, ⟨cDst c, w * cN c * plK c / 8, false⟩,
       ⟨cLo1 c / 16 * 16, if s = 0 then 0 else roundUp (cLo1 c % 16 + cN c * plK c * s) 16, false⟩]
  | 0x45 =>
    let b := cN c
    match c.sub.toNat with
    | 0 => [⟨cSrc c, 32 * b, false⟩, ⟨cLo1 c, 2 * b, false⟩, ⟨cDst c, roundUp (4 + 50 * b) 16, true⟩]
    | 1 => [⟨cSrc c / 16 * 16, 16, false⟩, ⟨cDst c, 32 * b, true⟩, ⟨cLo1 c, 2 * b, true⟩]
    | 2 => [⟨cSrc c / 16 * 16, 16, false⟩, ⟨cDst c, 64 * b, true⟩]
    | _ => [⟨cSrc c, 64 * b, false⟩, ⟨cDst c, roundUp (4 + 50 * b) 16, true⟩]
  | 0x46 => [⟨cSrc c, cvN c * codeWidth (cvSf c) / 8, false⟩, ⟨cDst c, cvN c * codeWidth (cvDf c) / 8, true⟩]
  | 0x47 => [⟨cDst c, rowSpan 0 (acRows c) (acPitch c) (acWds c * codeWidth (acDf c) / 8), true⟩]
  | 0x48 => [⟨cDst c, rowSpan 0 (acRows c) (acPitch c) (8 * topPairs c), true⟩]
  | 0x49 => [⟨cDst c, mvBytes c, true⟩]
  | 0x58 => [⟨cSrc c, 128 * fld c.d0 32 9, c.sub == 0⟩]
  | 0x70 | 0x71 | 0x72 => (lmItems c).map (fun p => ⟨p.2.1, p.2.2, false⟩)
  | 0x73 | 0x75 => [⟨cDst c, acRows c * acPitch c, false⟩]
  | 0x76 => [⟨fld c.d1 0 21, 192, false⟩]
  | _ => []

/-- The lowest and highest byte that an array of rows touches through the skew mapping (R205, R215). -/
def skewSpan (t : Tile) (a n stride w : Nat) : Nat × Nat :=
  match (List.range n).flatMap (fun i => (List.range (w / 16)).map (fun g => skewMap t (a + i * stride + 16 * g))) with
  | [] => (a, 0)
  | x :: xs => (xs.foldl Nat.min x, maxN (x :: xs) + 16 - xs.foldl Nat.min x)

/-- The SRAM ranges that a command may touch (R215): those it names, those of a CP.MOVE where the skew mapping puts them, and
for a decode of a PX8 stream the word count with the `words` words it counts (R290). -/
def touchedRanges (t : Tile) (words : Nat) (c : KCmd) : List Rng :=
  if c.op = 0x40 then
    let side (on : Bool) (a stride : Nat) : Nat × Nat :=
      if on then skewSpan t a (cN c) stride (mvBytes c) else (a, rowSpan 0 (cN c) stride (mvBytes c))
    let x := side (c.sub.getLsbD 0) (cSrc c) (mvSst c)
    let y := side (c.sub.getLsbD 1) (cDst c) (mvDst c)
    [⟨x.1, x.2, false⟩, ⟨y.1, y.2, true⟩]
  else if c.op = 0x45 ∧ (c.sub = 1 ∨ c.sub = 2) then
    ⟨cSrc c, 4 + 4 * words, false⟩ :: (cmdRanges t.sram c).drop 1
  else cmdRanges t.sram c

/-- The word count at the head of a PX8 stream as SRAM holds it (R290). -/
def px8Words (t : Tile) (c : KCmd) : Nat := Mem.load t.sram (cSrc c) 4

/-- Whether every range of a command lies within what its level reaches (R199, R203). -/
def rangesOk (t : Tile) (c : KCmd) : Bool :=
  (cmdRanges t.sram c).all (fun r => r.n == 0 || inBounds t c.station r.lo r.n)

/-- All of some numbers are multiples of `m`. -/
def allMul (m : Nat) (xs : List Nat) : Bool := xs.all (fun x => x % m == 0)

/-- The reason of a copy or spill command that fails at issue (R282, R283, R285 and the entries), 0 for none. -/
def copyIssueReason (t : Tile) (c : KCmd) : Nat :=
  if reservedSet c then 1
  else match c.op.toNat with
    | 0x40 =>
      if 2 ^ 21 < mvBytes c then 1
      else if cN c = 0 ∨ mvBytes c = 0 then 0
      else if allMul 16 [cSrc c, cDst c, mvBytes c, mvSst c, mvDst c] && rangesOk t c then 0 else 2
    | 0x41 | 0x42 =>
      let dense : List Rng :=
        [⟨cLo1 c, 4 * cN c, false⟩, ⟨if c.op == 0x41 then cDst c else cSrc c, cN c * mvSst c, true⟩]
      if allMul 16 [cSrc c, cDst c, mvSst c, mvDst c] && allMul 4 [cLo1 c]
        && dense.all (fun r => r.n == 0 || inBounds t c.station r.lo r.n) then 0 else 2
    | 0x43 | 0x44 =>
      match planeFmt (plFmt c) with
      | none => 3
      | some (_, s, ew) =>
        if cN c = 0 ∨ plK c = 0 ∨ plK c % 128 ≠ 0 ∨ plKs c = 0 ∨ plK c < plKs c ∨ plPitch c * 8 < plKs c * ew
          ∨ (s = 0 ∧ cLo1 c ≠ 0) then 1
        else if allMul 16 [cSrc c, cDst c] && (s != 2 || allMul 16 [cLo1 c]) && rangesOk t c then 0 else 2
    | 0x45 =>
      if cN c = 0 ∨ (2 ≤ c.sub.toNat ∧ cLo1 c ≠ 0) then 1
      else if (if c.sub == 1 || c.sub == 2 then allMul 4 [cSrc c] else allMul 16 [cSrc c])
        && allMul 16 [cDst c, cLo1 c] && rangesOk t c then 0 else 2
    | 0x46 =>
      if (fmtCode (cvSf c)).isNone ∨ (fmtCode (cvDf c)).isNone ∨ cvDf c = 0xC then 3
      else if 2 ^ 22 < cvN c ∨ cvN c * codeWidth (cvSf c) % 128 ≠ 0 ∨ cvN c * codeWidth (cvDf c) % 128 ≠ 0 then 1
      else if allMul 16 [cSrc c, cDst c] && rangesOk t c then 0 else 2
    | 0x47 =>
      if 4096 < acFirst c + acRows c ∨ 64 < acC0 c + acWds c ∨ acWds c = 0 then 1
      else if !accDfOk c then 3
      else if allMul 16 [cDst c, acPitch c, acWds c * codeWidth (acDf c) / 8]
        && (acWds c * codeWidth (acDf c)) % 8 == 0 && (acRows c == 0 || rangesOk t c) then 0 else 2
    | 0x48 =>
      if 4096 < acFirst c + acRows c ∨ 64 < acC0 c + acWds c ∨ acWds c = 0 ∨ acK c = 0 ∨ 16 < acK c
        ∨ acPitch c < 8 * topPairs c then 1
      else if allMul 16 [cDst c, acPitch c] && (acRows c == 0 || rangesOk t c) then 0 else 2
    | 0x49 =>
      if 2 ^ 21 < mvBytes c then 1
      else if allMul 16 [cDst c, mvBytes c] && rangesOk t c then 0 else 2
    | 0x58 =>
      if 256 < fld c.d0 32 9 then 1
      else if allMul 128 [cSrc c] && rangesOk t c then 0 else 2
    | _ => 0

/-- Whether the fault of a CP.ACC or CP.TOPK at issue is one of accumulator memory (R285): raised by first, rows, c0 or
wds. -/
def accFieldFault (c : KCmd) : Bool :=
  (c.op == 0x47 || c.op == 0x48)
    && (decide (4096 < acFirst c + acRows c) || decide (64 < acC0 c + acWds c) || acWds c == 0)

/-- Whether the dimensions of a compute command are within R315 and its banks within R342. -/
def lmDimsOk (c : KCmd) : Bool :=
  let m := lmM c
  let n := lmN c
  let k := lmK c
  let kk := if lmSparse c then 384 else 128
  m % 32 == 0 && decide (32 ≤ m ∧ m ≤ 256) && n % 16 == 0 && decide (16 ≤ n ∧ n ≤ 256)
    && k % kk == 0 && decide (kk ≤ k)
    && (lmRank c || decide (ceilDiv n 64 ≤ lmBp c ∧ lmBp c ≤ 15))
    && decide ((if lmRank c then lmB0 c + (ceilDiv m 32 - 1)
        else lmB0 c + (ceilDiv m 32 - 1) * lmBp c + ceilDiv n 64 - 1) ≤ 127)
    && !(lmRank c && !lmBnd c && lmAux c != 0)

/-- Bytes of a command's items in one buffer (R315). -/
def lmBuf (c : KCmd) (b : Bool) : Nat := sumN (((lmItems c).filter (fun p => p.1 == b)).map (fun p => p.2.2))

/-- The reason of a lens command that fails at issue (R340, R342, R349, R351, R354), 0 for none. -/
def lensIssueReason (t : Tile) (c : KCmd) : Nat :=
  if reservedSet c then 1
  else match c.op.toNat with
    | 0x70 | 0x71 | 0x72 =>
      if !lmDimsOk c || decide (262144 < lmBuf c false) || decide (262144 < lmBuf c true) then 1
      else if allMul 16 [lmApl c, lmBel c] && allMul 4 [lmAux c]
        && (lmSideW c != 2 || allMul 16 [lmSide c])
        && (!bit c.scla 63 || bit c.scla 62 || allMul 2 [fld c.scla 0 21])
        && (!bit c.sclb 63 || bit c.sclb 62 || allMul 2 [fld c.sclb 0 21]) && rangesOk t c then 0 else 2
    | 0x73 =>
      if 4096 < acFirst c + acRows c ∨ 64 < acC0 c + acWds c ∨ acWds c = 0 then 1
      else if allMul 16 [cDst c, acPitch c] && rangesOk t c then 0 else 2
    | 0x74 => if 4096 < acFirst c + acRows c then 1 else 0
    | 0x75 =>
      if 4096 < acFirst c + acRows c ∨ acPitch c < 256 then 1
      else if allMul 16 [cDst c, acPitch c] && rangesOk t c then 0 else 2
    | 0x76 =>
      if 4096 < acFirst c + acRows c then 1
      else if allMul 256 [fld c.d1 0 21] && rangesOk t c then 0 else 2
    | 0x77 | 0x78 =>
      if 128 < fld c.d0 0 7 + fld c.d0 8 8 ∨ (bit c.d0 18 ∧ fld c.d0 16 2 ≠ 0) then 1 else 0
    | _ => 0

end Sys2Proof.Machine
end

