-- ==== Sys2Proof/Machine/Hazard.lean ====
section
/-! DEFINITION. Hazard checking (R215): the ranges that the commands in flight hold, breaches, and the checked SRAM access
of the keeper (R234). -/

namespace Sys2Proof.Machine

/-- The SRAM ranges of a message command (R306 to R311). -/
def slotRanges (m : MSlot) : List Rng :=
  match m.kind with
  | .send | .ssend => [⟨m.buf, m.len, false⟩]
  | .sendTree => [⟨m.buf, m.len, false⟩, ⟨fld m.d3 0 21, 1040, false⟩]
  | .recv | .recvAdd => [⟨m.buf, roundUp m.len 16, true⟩]
  | .recvPx8 =>
    let b := fld m.d3 32 16
    if bit m.d3 48 then [⟨m.buf, 64 * b, true⟩] else [⟨m.buf, 32 * b, true⟩, ⟨fld m.d3 0 21, 2 * b, true⟩]

/-- The unexpected pool's region (R207). -/
def poolBase (t : Tile) : Nat := fld t.ctrl.uxpool 12 9 * 4096
def poolSize (t : Tile) : Nat := fld t.ctrl.uxpool 32 9 * 4096

/-- The match log's ring (R279). -/
def ringBase (t : Tile) : Nat := fld t.ctrl.matchlog 12 9 * 4096
def ringSize (t : Tile) : Nat := 2 ^ fld t.ctrl.matchlog 40 5 * 16
def ringMode (t : Tile) : Nat := fld t.ctrl.matchlog 0 2

/-- The copy and lens commands of a tile in flight: queued, running, granted and accepted (R215), each with the word count
that a PX8 decode goes by. -/
def inFlightCmds (s : State) (r : Nat) : List (KCmd × Nat) :=
  let t := tileOf s r
  let l := lensOf s (clusterOf r)
  let pos := posOf r
  (t.eng.copyQ ++ t.stCopy.toList ++ t.eng.lensQ ++ t.stLens.toList
    ++ (l.slots.toList.filterMap id).filterMap (fun x => if x.tile = pos then some x.cmd else none)
    ++ l.accepted.filterMap (fun x => if x.tile = pos then some x.cmd else none)).map (fun c => (c, px8Words t c))
    ++ (t.copyRun.map (fun x => (x.cmd, x.words))).toList

/-- The span from the lowest to the highest byte of some ranges (R215). -/
def hull (write : Bool) (rs : List Rng) : List Rng :=
  match rs.filter (fun x => x.write == write && x.n != 0) with
  | [] => []
  | x :: xs =>
    let lo := xs.foldl (fun a y => Nat.min a y.lo) x.lo
    [⟨lo, maxN ((x :: xs).map (fun y => y.lo + y.n)) - lo, write⟩]

/-- The read range and the write range of a command (R215). -/
def spansOf (rs : List Rng) : List Rng := hull false rs ++ hull true rs

/-- The held ranges of a tile, each with the output token of its command (R215). The regions that belong to no command, pool
and match log, come last with token 0 (log entry 98). -/
def heldRanges (s : State) (r : Nat) : List (Rng × Nat) :=
  let t := tileOf s r
  let slots := (t.eng.slots ++ t.stSlots).filter (fun p => p.2.st != .complete && p.2.st != .free)
  (inFlightCmds s r).flatMap (fun c => (spansOf (touchedRanges t c.2 c.1)).map (fun x => (x, c.1.tout.toNat)))
    ++ slots.flatMap (fun p => (spansOf (slotRanges p.2)).map (fun x => (x, p.2.tout.toNat)))
    ++ [(⟨poolBase t, poolSize t, true⟩, 0)]
    ++ (if ringMode t = 0 then [] else [(⟨ringBase t, ringSize t, true⟩, 0)])

/-- The output token of a held range that an access breaches, none where checking is off or nothing is breached; of several,
the first in the order of `heldRanges` (log entry 98). -/
def breach (s : State) (r : Nat) (lo n : Nat) (store : Bool) : Option Nat :=
  if !bit (tileOf s r).ctrl.checkmode 0 then none
  else
    ((heldRanges s r).find? (fun p =>
      (store || p.1.write) && decide (lo < p.1.lo + p.1.n) && decide (p.1.lo < lo + n) && p.1.n != 0)).map Prod.snd

/-- One more breach, saturating (R215). -/
def countBreach (t : Tile) : Tile :=
  let n := fld t.ctrl.checkmode 32 16
  { t with ctrl := { t.ctrl with checkmode := putFld t.ctrl.checkmode 32 16 (Nat.min (n + 1) 0xFFFF) } }

/-- A keeper access to SRAM (R234): bounds, then alignment, then CHECKMODE, each before it is performed; `k` performs it
at the address, translated where it goes through the skew mapping (R233). -/
def keeperAccess (a : W64) (n : Nat) (store skew : Bool) (k : Nat → State → State) (s : State) : State :=
  let t := cur s
  if !inBounds t t.keeper.station a.toNat n then trapBound a s
  else if a.toNat % n ≠ 0 then trapMisaligned a s
  else
    let at_ := if skew then skewMap t a.toNat else a.toNat
    match breach s s.focus.val at_ n store with
    | none => k at_ s
    | some tok =>
      let s := modCur s countBreach
      if bit t.ctrl.checkmode 1 then k at_ s
      else enterTrap 9 (fun t => takeTrap false 9 a 16 tok t.keeper.pc s.cycle t) s

end Sys2Proof.Machine
end

