-- ==== Sys2Proof/Machine/LampInt.lean ====
section
/-! DEFINITION. What the operations of `ia`, `ib` and `pr` compute and deliver (R132 to R152). -/

namespace Sys2Proof.Machine

/-- The width of a lane in bits (R133). -/
def LaneW.bits : LaneW → Nat
  | .w8 => 8
  | .w16 => 16
  | .w32 => 32

/-- The unit number (R114). -/
def IntUnit.num : IntUnit → Nat
  | .ia => 0
  | .ib => 1

/-- Operand x: port `.a` of the unit (R132). -/
def opX (u : IntUnit) (l : Latch) : V128 :=
  match u with
  | .ia => l.iaA
  | .ib => l.ibA

/-- A lane-wise operation of x and y on a lane width, delivered to `.o` after 1 clk (R135, R136). -/
def laneOp (u : IntUnit) (n : Nat) (f : BitVec n → BitVec n → BitVec n) (s : State) : OpRes :=
  deliver (IntUnit.num u) 1 [(4 * IntUnit.num u, zipLanes n f (opX u s.bundle) s.bundle.t)] 0 s

/-- An operation on all 128 bits of x and y (R138). -/
def bitsOp (u : IntUnit) (f : V128 → V128 → V128) (s : State) : OpRes :=
  deliver (IntUnit.num u) 1 [(4 * IntUnit.num u, f (opX u s.bundle) s.bundle.t)] 0 s

/-- A signed value clamped to `n` bits (R136). -/
def clampS (n : Nat) (x : Int) : BitVec n :=
  let hi : Int := 2 ^ (n - 1)
  BitVec.ofInt n (if x < -hi then -hi else if hi - 1 < x then hi - 1 else x)

/-- An unsigned value clamped to `n` bits (R136). -/
def clampZ (n : Nat) (x : Int) : BitVec n :=
  let top : Int := 2 ^ n
  BitVec.ofInt n (if x < 0 then 0 else if top - 1 < x then top - 1 else x)

def smaller (n : Nat) (signed : Bool) (a b : BitVec n) : BitVec n :=
  if (if signed then b.slt a else b.ult a) then b else a
def larger (n : Nat) (signed : Bool) (a b : BitVec n) : BitVec n :=
  if (if signed then a.slt b else a.ult b) then b else a

def lampAdd (u : IntUnit) (w : LaneW) : State → OpRes := laneOp u (LaneW.bits w) (fun a b => a + b)
def lampSub (u : IntUnit) (w : LaneW) : State → OpRes := laneOp u (LaneW.bits w) (fun a b => a - b)
def lampAddsS (u : IntUnit) (w : LaneW) : State → OpRes :=
  laneOp u (LaneW.bits w) (fun a b => clampS (LaneW.bits w) (a.toInt + b.toInt))
def lampAddsZ (u : IntUnit) (w : LaneW) : State → OpRes :=
  laneOp u (LaneW.bits w) (fun a b => clampZ (LaneW.bits w) ((a.toNat : Int) + b.toNat))
def lampSubsS (u : IntUnit) (w : LaneW) : State → OpRes :=
  laneOp u (LaneW.bits w) (fun a b => clampS (LaneW.bits w) (a.toInt - b.toInt))
def lampSubsZ (u : IntUnit) (w : LaneW) : State → OpRes :=
  laneOp u (LaneW.bits w) (fun a b => clampZ (LaneW.bits w) ((a.toNat : Int) - b.toNat))
def lampMinS (u : IntUnit) (w : LaneW) : State → OpRes := laneOp u (LaneW.bits w) (smaller (LaneW.bits w) true)
def lampMinZ (u : IntUnit) (w : LaneW) : State → OpRes := laneOp u (LaneW.bits w) (smaller (LaneW.bits w) false)
def lampMaxS (u : IntUnit) (w : LaneW) : State → OpRes := laneOp u (LaneW.bits w) (larger (LaneW.bits w) true)
def lampMaxZ (u : IntUnit) (w : LaneW) : State → OpRes := laneOp u (LaneW.bits w) (larger (LaneW.bits w) false)

/-- The shifts take the count of each lane, never modulo the width (R137). -/
def lampShl (u : IntUnit) (w : LaneW) : State → OpRes := laneOp u (LaneW.bits w) (fun a c =>
  if LaneW.bits w ≤ c.toNat then 0 else a <<< c.toNat)
def lampShrZ (u : IntUnit) (w : LaneW) : State → OpRes := laneOp u (LaneW.bits w) (fun a c => a >>> c.toNat)
def lampShrS (u : IntUnit) (w : LaneW) : State → OpRes := laneOp u (LaneW.bits w) (fun a c => a.sshiftRight c.toNat)

def lampAnd (u : IntUnit) : State → OpRes := bitsOp u (fun x y => x &&& y)
def lampOr (u : IntUnit) : State → OpRes := bitsOp u (fun x y => x ||| y)
def lampXor (u : IntUnit) : State → OpRes := bitsOp u (fun x y => x ^^^ y)
def lampAndn (u : IntUnit) : State → OpRes := bitsOp u (fun x y => x &&& ~~~ y)
def lampNot (u : IntUnit) : State → OpRes := bitsOp u (fun _ y => ~~~ y)
def lampMov (u : IntUnit) : State → OpRes := bitsOp u (fun _ y => y)
def lampAdd64 (u : IntUnit) : State → OpRes := laneOp u 64 (fun a b => a + b)
def lampSub64 (u : IntUnit) : State → OpRes := laneOp u 64 (fun a b => a - b)

/-! ## `ib` alone (R140 to R146) -/

/-- `.o` of `ib` after 1 clk. -/
def ibOut (v : V128) (s : State) : OpRes := deliver 1 1 [(4, v)] 0 s

/-- The low half of each product (R140). -/
def lampMul (w : LaneW) (s : State) : OpRes :=
  deliver 1 3 [(4, zipLanes (LaneW.bits w) (fun a b => a * b) s.bundle.ibA s.bundle.t)] 0 s

/-- The products of the lanes from `lo` up as lanes of twice the width (R141). -/
def wideLanes (n : Nat) (signed : Bool) (lo : Nat) (x y : V128) : V128 :=
  packLanes (2 * n) ((List.range (64 / n)).map (fun i =>
    let a := lane x n (lo + i)
    let b := lane y n (lo + i)
    if signed then BitVec.ofInt (2 * n) (a.toInt * b.toInt) else BitVec.ofNat (2 * n) (a.toNat * b.toNat)))

/-- A widening product to `.o` and `.o1` (R141). -/
def lampMulw (signed : Bool) (w : LaneW) (s : State) : OpRes :=
  let n := LaneW.bits w
  deliver 1 3 [(4, wideLanes n signed 0 s.bundle.ibA s.bundle.t), (5, wideLanes n signed (64 / n) s.bundle.ibA s.bundle.t)]
    0 s

/-- The number of 1 bits of each lane (R142). -/
def lampPopc (s : State) : OpRes :=
  ibOut (mapLanes 32 (fun a => BitVec.ofNat 32 ((List.range 32).filter (fun i => a.getLsbD i)).length) s.bundle.t) s

/-- A permutation of the `n`-bit items of y then z by the items of x: the top bit of a selector gives 0 (R143, R144). -/
def permute (n : Nat) (x y z : V128) : V128 :=
  let k := 128 / n
  packLanes n ((List.range k).map (fun i =>
    let sel := lane x n i
    let j := sel.toNat % (2 * k)
    if sel.getLsbD (n - 1) then 0 else if j < k then lane y n j else lane z n (j - k)))

def lampPermB8 (s : State) : OpRes := ibOut (permute 8 s.bundle.ibA s.bundle.t s.bundle.ibB) s
def lampPermB32 (s : State) : OpRes := ibOut (permute 32 s.bundle.ibA s.bundle.t s.bundle.ibB) s

/-- One lane of y in all lanes (R145). -/
def lampBcast (s : State) : OpRes := ibOut (bcast32 (lane s.bundle.t 32 ((lane s.bundle.ibA 32 0).toNat % 4))) s

/-- Lanes of y and z from `lo` up, interleaved (R146). -/
def interleave (n lo : Nat) (y z : V128) : V128 :=
  packLanes n ((List.range (128 / n)).map (fun i =>
    if i % 2 = 0 then lane y n (lo + i / 2) else lane z n (lo + i / 2)))

def lampZipl (w32 : Bool) (s : State) : OpRes :=
  ibOut (interleave (if w32 then 32 else 16) 0 s.bundle.t s.bundle.ibB) s
def lampZiph (w32 : Bool) (s : State) : OpRes :=
  ibOut (interleave (if w32 then 32 else 16) (if w32 then 2 else 4) s.bundle.t s.bundle.ibB) s

/-! ## `pr` (R147 to R152) -/

/-- `.o` of `pr` after 1 clk. -/
def prOut (v : V128) (s : State) : OpRes := deliver 6 1 [(24, v)] 0 s

/-- All ones or all zeros (R149). -/
def allBits (b : Bool) : V128 := if b then BitVec.allOnes 128 else 0

/-- The conditions of a compare (R147). -/
inductive Cond where | eq | ne | lt | le
  deriving DecidableEq, Repr

/-- A condition on integers. -/
def Cond.int (c : Cond) (a b : Int) : Bool :=
  match c with
  | .eq => decide (a = b)
  | .ne => decide (a ≠ b)
  | .lt => decide (a < b)
  | .le => decide (a ≤ b)

/-- A condition on float values (R148): a NaN makes every condition but ne false. -/
def Cond.flt (c : Cond) (a b : FVal) : Bool :=
  match c with
  | .eq => eqVal a b
  | .ne => !eqVal a b
  | .lt => ltVal false a b
  | .le => ltVal false a b || eqVal a b

/-- Invalid of a float compare (R148). -/
def Cond.inv (c : Cond) (a b : FVal) : Bool :=
  a.isSig || b.isSig || ((a.isNan || b.isNan) && (c == .lt || c == .le))

/-- The lanes of a compare type: an integer with its signedness, or a float format (R123). -/
def CmpType.split : CmpType → (Nat × Bool) ⊕ Fmt
  | .s8 => .inl (8, true)
  | .s16 => .inl (16, true)
  | .s32 => .inl (32, true)
  | .z8 => .inl (8, false)
  | .z16 => .inl (16, false)
  | .z32 => .inl (32, false)
  | .f32 => .inr fp32
  | .f16 => .inr fp16
  | .bf16 => .inr bf16

/-- A compare (R147, R148). -/
def lampCmp (c : Cond) (ty : CmpType) (s : State) : OpRes :=
  let x := s.bundle.prA
  let y := s.bundle.t
  match CmpType.split ty with
  | .inl (n, sg) =>
    prOut (zipLanes n (fun a b =>
      if (if sg then c.int a.toInt b.toInt else c.int a.toNat b.toNat) then BitVec.allOnes n else 0) x y) s
  | .inr f =>
    let n := f.width
    let v := zipLanes n (fun a b => if c.flt (f.decode a.toNat) (f.decode b.toNat) then BitVec.allOnes n else 0) x y
    let inv := (List.range (128 / n)).any (fun i => c.inv (f.decode (lane x n i).toNat) (f.decode (lane y n i).toNat))
    deliverOrTrap 6 1 [(24, v)] (ofBool inv) s

/-- Whether lane n of 32 bits is not zero. -/
def laneSet (y : V128) (n : Nat) : Bool := lane y 32 n != 0

def lampAny (s : State) : OpRes := prOut (allBits ((List.range 4).any (laneSet s.bundle.t))) s
def lampAll (s : State) : OpRes := prOut (allBits ((List.range 4).all (laneSet s.bundle.t))) s

/-- A bitwise select of y and z by x (R150). -/
def lampSel (s : State) : OpRes :=
  prOut ((s.bundle.t &&& s.bundle.prA) ||| (s.bundle.prB &&& ~~~ s.bundle.prA)) s

/-- A predicate operation on bit 0 of lane 0 (R151). -/
def predOp (f : Bool → Bool → Bool) (s : State) : OpRes :=
  prOut (allBits (f (s.bundle.prA.getLsbD 0) (s.bundle.t.getLsbD 0))) s

/-- A lane mask of `n`-bit lanes from the bit string of y shifted by x (R152). -/
def maskOp (n : Nat) (s : State) : OpRes :=
  let h := (lane s.bundle.prA 32 0).toNat % 32
  let bits := lane s.bundle.t 32 0 >>> h
  prOut (packLanes n ((List.range (128 / n)).map (fun i => if bits.getLsbD i then BitVec.allOnes n else 0))) s

end Sys2Proof.Machine
end

