-- ==== Sys2Proof/Machine/Special.lean ====
section
/-! DEFINITION. The five functions of `sf`, correctly rounded (R163, R164). Irrational results are bracketed by fixed-point
values with enough bits that the rounding is decided (log entry 13), and carry a last bit that says they are not exact. -/

namespace Sys2Proof.Machine

/-- Integer square root by bits from `i` down. -/
def isqrtAux (n : Nat) : Nat → Nat → Nat
  | 0, r => r
  | i + 1, r =>
    let c := r + 2 ^ i
    isqrtAux n i (if c * c ≤ n then c else r)

/-- Integer square root. -/
def isqrt (n : Nat) : Nat := isqrtAux n (Nat.log2 n / 2 + 1) 0

/-- Round a positive value and pass it through Ftz. -/
def sfRound (ftzOn s : Bool) (mant : Nat) (exp : Int) : Nat × Nat :=
  let (v, fl) := fp32.roundArith .rne s mant exp
  fp32.ftz ftzOn v fl

/-- The reciprocal of a finite non-zero value: a quotient with a sticky last bit. -/
def rcpFin (ftzOn s : Bool) (m : Nat) (e : Int) : Nat × Nat :=
  let k := Nat.log2 m + 64
  let q := 2 ^ k / m
  let st := if 2 ^ k % m = 0 then 0 else 1
  sfRound ftzOn s (2 * q + st) (-(k : Int) - e - 1)

/-- The square root of a finite positive value. -/
def sqrtFin (ftzOn : Bool) (m : Nat) (e : Int) : Nat × Nat :=
  let odd := (e % 2).toNat
  let n := m * 2 ^ (128 + odd)
  let q := isqrt n
  let st := if q * q = n then 0 else 1
  sfRound ftzOn false (2 * q + st) ((e - odd) / 2 - 64 - 1)

/-- The reciprocal square root of a finite positive value. -/
def rsqrtFin (ftzOn : Bool) (m : Nat) (e : Int) : Nat × Nat :=
  let odd := (e % 2).toNat
  let d := m * 2 ^ odd
  let n := 2 ^ 256 / d
  let q := isqrt n
  let st := if q * q * d = 2 ^ 256 then 0 else 1
  sfRound ftzOn false (2 * q + st) (-((e - odd) / 2) - 128 - 1)

/-- The fraction bits of the fixed-point values. -/
def sfPrec : Nat := 160

/-- 2^f for the fraction bits `fr` (of `n` places), as a fixed-point value of `sfPrec` places not above it: the product of
the roots 2^(2^-i) whose bit is set; `c` holds the root of the previous place. -/
def exp2Frac (fr n : Nat) : Nat → Nat → Nat → Nat
  | 0, _, acc => acc
  | i + 1, c, acc =>
    let c := isqrt (c * 2 ^ sfPrec)
    exp2Frac fr n i c (if fr / 2 ^ i % 2 = 1 then acc * c / 2 ^ sfPrec else acc)

/-- 2^x for a finite non-zero x (R163). -/
def exp2Fin (ftzOn s : Bool) (m : Nat) (e : Int) : Nat × Nat :=
  let lg := floorLog2 m e
  if lg ≥ 8 then
    (if s then sfRound ftzOn false 3 (-302) else sfRound ftzOn false 1 300)
  else if lg < -40 then
    -- a value so near 1 that only its side is seen
    sfRound ftzOn false (if s then 2 ^ 60 - 1 else 2 ^ 60 + 1) (-60)
  else if e ≥ 0 then
    let n : Int := (m * 2 ^ e.toNat : Nat)
    sfRound ftzOn false 1 (if s then -n else n)
  else
    let w := (-e).toNat
    let ip : Int := (m / 2 ^ w : Nat)
    let fp := m % 2 ^ w
    if fp = 0 then sfRound ftzOn false 1 (if s then -ip else ip)
    else
      let (n, fr) : Int × Nat := if s then (-ip - 1, 2 ^ w - fp) else (ip, fp)
      let v := exp2Frac fr w w (2 * 2 ^ sfPrec) (2 ^ sfPrec)
      sfRound ftzOn false (2 * v + 1) (n - sfPrec - 1)

/-- The fraction bits of log2 of a fixed-point y in [1, 2), most significant first, by repeated squaring. -/
def log2Frac : Nat → Nat → Nat → Nat
  | 0, _, acc => acc
  | i + 1, y, acc =>
    let y2 := y * y / 2 ^ sfPrec
    if 2 * 2 ^ sfPrec ≤ y2 then log2Frac i (y2 / 2) (2 * acc + 1) else log2Frac i y2 (2 * acc)

/-- log2 of a finite positive value (R163). -/
def log2Fin (ftzOn : Bool) (m : Nat) (e : Int) : Nat × Nat :=
  let lg := Nat.log2 m
  let n : Int := (lg : Int) + e
  if m = 2 ^ lg then
    if n = 0 then (0, 0) else sfRound ftzOn (decide (n < 0)) n.natAbs 0
  else
    let y := m * 2 ^ sfPrec / 2 ^ lg
    let k := 110
    let fr := log2Frac k y 0
    -- the exact value lies between n + fr/2^k and n + (fr + 1)/2^k
    if 0 ≤ n then sfRound ftzOn false (2 * (n.toNat * 2 ^ k + fr) + 1) (-(k : Int) - 1)
    else sfRound ftzOn true (2 * ((-n).toNat * 2 ^ k - fr - 1) + 1) (-(k : Int) - 1)

/-- The functions of `sf` (R163). -/
inductive SfOp where | rcp | sqrt | rsqrt | exp2 | log2
  deriving DecidableEq, Repr

/-- One lane of an `sf` operation (R163, R164). -/
def sfLane (op : SfOp) (ftz : Bool) (x : Nat) : Nat × Nat :=
  let v := fp32.decodeDaz ftz x
  let nanInv : Nat × Nat := (fp32.canonNan, flInvalid)
  match v with
  | .nan s g m sig => (fp32.quietNan s g m, if sig then flInvalid else 0)
  | .inf s =>
    match op with
    | .rcp => (fp32.signBit s, 0)
    | .sqrt => if s then nanInv else (fp32.infMag, 0)
    | .rsqrt => if s then nanInv else (0, 0)
    | .exp2 => if s then (0, 0) else (fp32.infMag, 0)
    | .log2 => if s then nanInv else (fp32.infMag, 0)
  | .fin s m e =>
    if m = 0 then
      match op with
      | .rcp => (fp32.signBit s + fp32.infMag, flDivZero)
      | .sqrt => (fp32.signBit s, 0)
      | .rsqrt => (fp32.signBit s + fp32.infMag, flDivZero)
      | .exp2 => (0x3F800000, 0)
      | .log2 => (fp32.signBit true + fp32.infMag, flDivZero)
    else
      match op with
      | .rcp => rcpFin ftz s m e
      | .sqrt => if s then nanInv else sqrtFin ftz m e
      | .rsqrt => if s then nanInv else rsqrtFin ftz m e
      | .exp2 => exp2Fin ftz s m e
      | .log2 => if s then nanInv else log2Fin ftz m e

end Sys2Proof.Machine
end

