-- ==== Sys2Proof/Machine/LampFloat.lean ====
section
/-! DEFINITION. What the operations of `fm` and `sf` compute and deliver (R157 to R164). -/

namespace Sys2Proof.Machine

/-- The lane format of an `fm` operation (R119). -/
def FmType.fmt : FmType → Fmt
  | .f32 => fp32
  | .f16 => fp16
  | .bf16 => bf16

/-- The OR of the flags of all lanes (R60). -/
def orAll (xs : List Nat) : Nat := xs.foldl (fun a b => a ||| b) 0

/-- Lanes of results with their flags, as a value and the flags (R155). -/
def gatherLanes (n : Nat) (xs : List (Nat × Nat)) : V128 × Nat :=
  (packLanes n (xs.map (fun p => BitVec.ofNat n p.1)), orAll (xs.map Prod.snd))

/-- The rounding mode of lamp operations (R47, R154). -/
def lampRnd (s : State) : Rnd := rndOf (fld (theTile s).ctrl.rndmode 0 2)

/-- An `fm` operation lane by lane, 4 clk (R156, R157). -/
def fmOp (ty : FmType) (f : Nat → Nat → Nat → Nat × Nat) (s : State) : OpRes :=
  let n := (FmType.fmt ty).width
  let at_ (v : V128) (i : Nat) : Nat := (lane v n i).toNat
  let (v, fl) := gatherLanes n ((List.range (128 / n)).map (fun i =>
    f (at_ s.bundle.fmA i) (at_ s.bundle.fmB i) (at_ s.bundle.t i)))
  deliverOrTrap 2 4 [(8, v)] fl s

/-- A multiply-add with its sign flips (R158). -/
def lampFma (sp sc : Bool) (ty : FmType) (s : State) : OpRes :=
  let f := FmType.fmt ty
  let d := ftzDaz s
  fmOp ty (fun a b t =>
    f.fmLane (lampRnd s) d sp sc (f.decodeDaz d a) (f.decodeDaz d b) (some (f.decodeDaz d t))) s

/-- The value 1 of a format. -/
def oneVal : FVal := .fin false 1 0

/-- `add` and `sub` as 1 times a plus or minus t (R158). -/
def lampFAdd (sc : Bool) (ty : FmType) (s : State) : OpRes :=
  let f := FmType.fmt ty
  let d := ftzDaz s
  fmOp ty (fun a _ t => f.fmLane (lampRnd s) d false sc (f.decodeDaz d a) oneVal (some (f.decodeDaz d t))) s

/-- `mul` without an addend (R158). -/
def lampFMul (ty : FmType) (s : State) : OpRes :=
  let f := FmType.fmt ty
  let d := ftzDaz s
  fmOp ty (fun a _ t => f.fmLane (lampRnd s) d false false (f.decodeDaz d a) (f.decodeDaz d t) none) s

/-- `min` and `max` (R160). -/
def lampFMinMax (wantMax : Bool) (ty : FmType) (s : State) : OpRes :=
  fmOp ty (fun a _ t => (FmType.fmt ty).minMax wantMax (ftzDaz s) a t) s

/-- Daz on an encoding (R59). -/
def dazBits (f : Fmt) (on : Bool) (x : Nat) : Nat :=
  if on && f.expZero x then x / 2 ^ (f.m + f.eb) * 2 ^ (f.m + f.eb) else x

/-- `abs` and `neg` on the sign bit (R161). -/
def lampSign (inv : Bool) (ty : FmType) (s : State) : OpRes :=
  let f := FmType.fmt ty
  fmOp ty (fun _ _ t =>
    let x := dazBits f (ftzDaz s) t
    let m := x % 2 ^ (f.m + f.eb)
    (if inv then f.signBit (x / 2 ^ (f.m + f.eb) % 2 == 0) + m else m, 0)) s

/-- An access to the mode or flags word at its delivery, kept with its latched operands (R162). A new mode word counts for
operations triggered after that clk. -/
def wordOp (i : Instr) (s : State) : OpRes :=
  .ok (putFlight 4 (fun o => { o with unit := 2, access := some (i, s.bundle) }) s)

/-- A special function lane by lane, 6 clk (R163, R164). -/
def lampSf (op : SfOp) (s : State) : OpRes :=
  let (v, fl) := gatherLanes 32 ((List.range 4).map (fun i => sfLane op (ftzDaz s) (lane s.bundle.t 32 i).toNat))
  deliverOrTrap 3 6 [(12, v)] fl s

end Sys2Proof.Machine
end

