-- ==== Sys2Proof/Machine/LampConv.lean ====
section
/-! DEFINITION. What the operations of `cv` compute and deliver (R165 to R173), with the generator of R49. -/

namespace Sys2Proof.Machine

/-- A generator step (R49). -/
def genNext (x : W32) : W32 :=
  let x := x ^^^ (x <<< 13)
  let x := x ^^^ (x >>> 17)
  x ^^^ (x <<< 5)

/-- The generator after n steps. -/
def genSteps : Nat → W32 → W32
  | 0, x => x
  | n + 1, x => genSteps n (genNext x)

/-- The random word of element i (R50). -/
def genWord (x : W32) (i : Nat) : W32 := genSteps (i + 1) x

/-- A seed as it is stored (R49). -/
def seedOf (x : W32) : W32 := if x = 0 then 0x2545F491 else x

/-- The source sequence: `n` elements of `w` bits from t, a, b, c (R165). -/
def srcSeq (w n : Nat) (l : Latch) : List Nat :=
  let all := l.t.toNat + l.cvA.toNat * 2 ^ 128 + l.cvB.toNat * 2 ^ 256 + l.cvC.toNat * 2 ^ 384
  (List.range n).map (fun i => bitsN all (w * i) w)

/-- The result ports of a result sequence of `w`-bit elements: `k` ports from `.o` up (R165). -/
def resPorts (w k : Nat) (xs : List Nat) : List (Nat × V128) :=
  let per := 128 / w
  (List.range k).map (fun j =>
    (16 + j, packLanes w ((List.range per).map (fun i => BitVec.ofNat w (xs.getD (j * per + i) 0)))))

/-- The overflow policy of lamp conversions (R51). -/
def lampTrap (s : State) : Bool := bit (theTile s).ctrl.cvtmode 0

/-- A conversion of `n` elements into `k` ports (R165 to R169). `mode` gives the rounding of element i; `stands` is what
stands when the move faults CVT_OVERFLOW, and also what precedes the delivery: the steps of a `.sr` form (R54). -/
def convertOp (src dst : NumTy) (n k : Nat) (mode : Nat → Rnd) (stands : State → State) (s : State) : OpRes :=
  let d := ftzDaz s
  let rs := (srcSeq src.width n s.bundle).zipIdx.map (fun p => convert src dst (mode p.2) (lampTrap s) d d p.1)
  let fl := orAll (rs.map (fun c => c.flags))
  if rs.any (fun c => c.trap) then .fault 12 (stands s)
  else if invTrap s && fl % 2 == 1 then .fault 13 (modThe s (orFlags 1))
  else deliver 4 2 (resPorts dst.width k (rs.map (fun c => c.bits))) fl (stands s)

/-- A conversion under RNDMODE (R167, R168). -/
def cvt (src dst : NumTy) (n k : Nat) (s : State) : OpRes := convertOp src dst n k (fun _ => lampRnd s) (fun s => s) s

/-- A stochastic narrowing (R50, R169): one generator step an element. -/
def cvtStoch (src dst : NumTy) (n k : Nat) (s : State) : OpRes :=
  let g := (theLamp s).gen
  convertOp src dst n k (fun i => .sr (genWord g i)) (fun s => modThe s (fun x => { x with gen := genSteps n g })) s

/-- The elements and ports of the ten conversions that have a stochastic form (R121, R166): source, destination, elements,
ports. -/
def srShape (k : SrKind) : NumTy × NumTy × Nat × Nat :=
  match k with
  | .bf16 => (.flt fp32, .flt Sys2Proof.Machine.bf16, 8, 1)
  | .f16 => (.flt fp32, .flt fp16, 8, 1)
  | .e4m3 => (.flt fp32, .flt Sys2Proof.Machine.e4m3, 16, 1)
  | .e5m2 => (.flt fp32, .flt Sys2Proof.Machine.e5m2, 16, 1)
  | .e2m1 => (.flt fp32, .flt Sys2Proof.Machine.e2m1, 16, 1)
  | .e4m3Bf16 => (.flt Sys2Proof.Machine.bf16, .flt Sys2Proof.Machine.e4m3, 16, 1)
  | .e5m2Bf16 => (.flt Sys2Proof.Machine.bf16, .flt Sys2Proof.Machine.e5m2, 16, 1)
  | .f16Bf16 => (.flt Sys2Proof.Machine.bf16, .flt fp16, 8, 1)
  | .s32 => (.flt fp32, .int true 32, 4, 1)
  | .f32S32 => (.int true 32, .flt fp32, 4, 1)

/-- A conversion of the shape of one of the ten, under RNDMODE. -/
def cvtShape (k : SrKind) (s : State) : OpRes :=
  let (a, b, n, p) := srShape k
  cvt a b n p s

/-- A conversion of the shape of one of the ten, stochastic. -/
def cvtSrShape (k : SrKind) (s : State) : OpRes :=
  let (a, b, n, p) := srShape k
  cvtStoch a b n p s

/-- The 512-bit window of a PX8 expansion (R171). -/
def px8Window (l : Latch) : List Bool :=
  bitsOf 512 (l.t.toNat + l.cvA.toNat * 2 ^ 128 + l.cvB.toNat * 2 ^ 256 + l.cvC.toNat * 2 ^ 384)

/-- `px8.e4m3` (R171). -/
def lampPx8E4m3 (s : State) : OpRes :=
  match px8DecodeBlock (px8Window s.bundle) with
  | none => deliverOrTrap 4 4 [(16, 0), (17, 0), (18, packLanes 32 [0, 0, 0, 1])] flInvalid s
  | some (b, _) =>
    let o := resPorts 8 2 b.elems
    deliverOrTrap 4 4
      (o ++ [(18, packLanes 32 [BitVec.ofNat 32 b.scale, BitVec.ofNat 32 b.emax, BitVec.ofNat 32 b.len, 0])]) 0 s

/-- `px8.bf16` (R172). -/
def lampPx8Bf16 (s : State) : OpRes :=
  match px8DecodeBlock (px8Window s.bundle) with
  | none => deliverOrTrap 4 4 (resPorts 16 4 (List.replicate 32 0x7FC0)) flInvalid s
  | some (b, _) =>
    let rs := b.elems.map (fun x => px8Bf16Elem (lampRnd s) (lampTrap s) (ftzDaz s) b.scale x)
    if rs.any (fun c => c.trap) then .fault 12 s
    else deliverOrTrap 4 4 (resPorts 16 4 (rs.map (fun c => c.bits))) (orAll (rs.map (fun c => c.flags))) s

/-- A transposition of items of `w` bits into planes (R173): bit i of lane q is bit w - 1 - q of item i. -/
def planes (w : Nat) (x : V128) : V128 :=
  let n := 128 / w
  packLanes n ((List.range w).map (fun q => BitVec.ofNat n
    (sumN (upTo n (fun i => ofBool ((lane x w i).getLsbD (w - 1 - q)) * 2 ^ i)))))

/-- The inverse of `planes` (R173). -/
def unplanes (w : Nat) (x : V128) : V128 :=
  let n := 128 / w
  packLanes w ((List.range n).map (fun i => BitVec.ofNat w
    (sumN (upTo w (fun q => ofBool ((lane x n q).getLsbD i) * 2 ^ (w - 1 - q))))))

/-- The item width that a[0][0] selects (R173). -/
def planeWidth (s : State) : Nat := if s.bundle.cvA.getLsbD 0 then 16 else 8

def lampPlanePack (s : State) : OpRes := deliver 4 2 [(16, planes (planeWidth s) s.bundle.t)] 0 s
def lampPlaneUnpack (s : State) : OpRes := deliver 4 2 [(16, unplanes (planeWidth s) s.bundle.t)] 0 s

/-- `rdrng` (R170). -/
def lampRdrng (s : State) : OpRes := deliver 4 2 [(16, (theLamp s).gen.zeroExtend 128)] 0 s

end Sys2Proof.Machine
end

