-- ==== Sys2Proof/Machine/LampMem.lean ====
section
/-! DEFINITION. The accesses of `ls`: checks at the move (R175, R179, R182), and the access itself, which waits piece by piece
for its SRAM banks or the accumulator-row port, and for the lamp's earlier accesses (R104, R174 to R185). -/

namespace Sys2Proof.Machine

/-- The address in a lane of the trigger operand (R174). -/
def lsAddr (l : Latch) (n : Nat) : Nat := (lane l.t 32 n).toNat

/-- The bank number of `ldb` and `stb` (R179). -/
def lsBank (l : Latch) : Nat := (lane l.lsB 32 0).toNat % 4

/-- Whether an operation's SRAM access is a store or an atomic. -/
def lsStores : Instr → Bool
  | .lsSt | .lsStSk | .stB32 | .stgB32 | .stb | .atomAddF32 | .atomAddBf16 | .atomAddS32 => true
  | _ => false

/-- The SRAM addresses of an operation as written, with the size of each (R176, R184); none for accumulator rows. -/
def lsAccesses (i : Instr) (l : Latch) : List Nat × Nat :=
  match i with
  | .lsLd | .lsLdSk | .lsSt | .lsStSk | .atomAddF32 | .atomAddBf16 | .atomAddS32 => ([lsAddr l 0], 16)
  | .ldB32 | .stB32 => ([lsAddr l 0], 4)
  | .ldgB32 | .stgB32 => (upTo 4 (lsAddr l), 4)
  | .ldb | .stb => ([lsAddr l 0], 128)
  | _ => ([], 1)

/-- The skew mapping where the operation uses it (R177). -/
def lsReal (t : Tile) (i : Instr) (a : Nat) : Nat :=
  match i with
  | .lsLdSk | .lsStSk => skewMap t a
  | _ => a

/-- The pieces of an access: its lanes for a gather or scatter, its eight granules for a bank (R176, R179). -/
def lsPieces (i : Instr) : List Nat :=
  match i with
  | .ldgB32 | .stgB32 => List.range 4
  | .ldb | .stb => List.range 8
  | _ => [0]

/-- The granule of a piece of an access. -/
def pieceGranule (t : Tile) (i : Instr) (l : Latch) (j : Nat) : Nat :=
  (match i with
   | .ldgB32 | .stgB32 => lsAddr l j
   | .ldb | .stb => lsAddr l 0 + 16 * j
   | _ => lsReal t i (lsAddr l 0)) / 16 * 16

/-- Whether an operation reaches the accumulator memory (R181). -/
def lsAcc : Instr → Bool
  | .ldacc | .ldaccCol | .stacc => true
  | _ => false

/-- The accumulator rows that an operation touches (R181). -/
def lsRows (i : Instr) (l : Latch) : List Nat :=
  let w := (lane l.t 32 0).toNat
  match i with
  | .ldacc | .stacc => [w % 4096]
  | .ldaccCol => upTo 4 (fun n => w % 4096 + n)
  | _ => []

/-- The fault cause of an SRAM access, 0 for none: SRAM_BOUND before MISALIGNED (R175). -/
def lsSramCause (t : Tile) (i : Instr) (l : Latch) : Nat :=
  let (as, n) := lsAccesses i l
  if as.any (fun a => !inBounds t false a n) then 8 else if as.any (fun a => a % n != 0) then 9 else 0

/-- The fault cause of an accumulator access, 0 for none (R181, R182). -/
def lsAccCause (s : State) (r lmp : Nat) (i : Instr) (l : Latch) : Nat :=
  let rows := lsRows i l
  let bank (x : Nat) : Bank := SMap.getD (lensOf s (clusterOf r)).banks (x / 32) Bank.reset
  let g := (lampAt (tileOf s r) lmp).group
  match i with
  | .ldaccCol =>
    if rows.headD 0 % 4 ≠ 0 then 9 else check rows bank g r
  | _ => check rows bank g r
where
  check (rows : List Nat) (bank : Nat → Bank) (g : BitVec 2) (r : Nat) : Nat :=
    if rows.any (fun x => (bank x).st == .free || (bank x).st == .reserved) then 10
    else if rows.any (fun x => (bank x).tile != posOf r || (bank x).owner != some g) then 11
    else 0

/-- The fault cause of a bank move (R179), 0 for none. -/
def lsBankCause (now : Nat) (x : Lamp) (i : Instr) (l : Latch) : Nat :=
  match i with
  | .ldb | .stb => if (x.bank (lsBank l)).isNone then 5 else if x.filling now (lsBank l) then 6 else 0
  | _ => 0

/-- The lowest fault cause of an `ls` operation at its move, 0 for none. -/
def lsCause (s : State) (r lmp : Nat) (i : Instr) (l : Latch) : Nat :=
  let t := tileOf s r
  let cs := [lsBankCause s.cycle (lampAt t lmp) i l, lsSramCause t i l, lsAccCause s r lmp i l].filter (fun c => c != 0)
  match cs with
  | [] => 0
  | c :: rest => rest.foldl Nat.min c

/-- An atomic add on a granule: the new granule and the flags (R184). -/
def atomAdd (ty : AddTy) (old a : V128) : V128 × Nat :=
  let n := 8 * ty.bytes
  gatherLanes n ((List.range (128 / n)).map (fun i => ty.add (lane old n i).toNat (lane a n i).toNat))

/-- Perform a piece of an access: the state, what the operation holds for its delivery, its flags. `outs` holds what it holds
so far, and for `stb` what it read at its bundle (R179). -/
def lsPiece (r : Nat) (i : Instr) (l : Latch) (j : Nat) (outs : List (Nat × V128)) (s : State) :
    State × List (Nat × V128) × Nat :=
  let t := tileOf s r
  let a := lsReal t i (lsAddr l 0)
  let c := clusterOf r
  let w := (lane l.t 32 0).toNat
  let o (v : V128) : List (Nat × V128) := [(20, v)]
  let atom (ty : AddTy) : State × List (Nat × V128) × Nat :=
    let old := Mem.granule t.sram a
    let (new, fl) := atomAdd ty old l.lsA
    (modTile s r (storeGranule a new), o old, fl)
  match i with
  | .lsLd | .lsLdSk => (s, o (Mem.granule t.sram a), 0)
  | .lsSt | .lsStSk => (modTile s r (storeGranule a l.lsA), [], 0)
  | .ldB32 => (s, o (BitVec.ofNat 128 (Mem.load t.sram a 4)), 0)
  | .stB32 => (modTile s r (storeBytes a (leBytes 4 (lane l.lsA 32 0).toNat)), [], 0)
  | .ldgB32 =>
    let old := (outs.head?.map Prod.snd).getD 0
    (s, o (packLanes 32 (upTo 4 (fun n => if n = j then BitVec.ofNat 32 (Mem.load t.sram (lsAddr l j) 4) else lane old 32 n))), 0)
  | .stgB32 => (modTile s r (storeBytes (lsAddr l j) (leBytes 4 (lane l.lsA 32 j).toNat)), [], 0)
  | .ldb => (s, outs ++ [(32 + 8 * lsBank l + j, Mem.granule t.sram (a + 16 * j))], 0)
  | .stb => (match SMap.find outs j with
    | some v => (modTile s r (storeGranule (a + 16 * j) v), SMap.erase outs j, 0)
    | none => (s, outs, 0))
  | .ldacc => (s, o (packLanes 32 (upTo 4 (fun n => accWord s c (w % 4096) (w / 4096 % 16 * 4 + n)))), 0)
  | .ldaccCol => (s, o (packLanes 32 (upTo 4 (fun n => accWord s c (w % 4096 + n) (w / 4096 % 64)))), 0)
  | .stacc => (putAccWords c (w % 4096) (w / 4096 % 16 * 4) (upTo 4 (fun n => lane l.lsA 32 n)) s, [], 0)
  | .atomAddF32 => atom .f32
  | .atomAddBf16 => atom .bf16
  | .atomAddS32 => atom .s32
  | _ => (s, [], 0)

/-- Whether an SRAM access reads what it reaches (R176, R184). -/
def lsReads (i : Instr) : Bool :=
  match i with
  | .lsSt | .lsStSk | .stB32 | .stgB32 | .stb => false
  | _ => true

/-- Whether the bank of a granule, or the accumulator-row port (R182), is free in this clk, and what is read there has no
uncorrectable error, which is never delivered (R224). -/
def pieceFree (s : State) (r : Nat) (i : Instr) (l : Latch) (j : Nat) : Bool :=
  let t := tileOf s r
  if lsAcc i then
    t.accClk != s.cycle + 1 && (i == .stacc || !(lsRows i l).any (fun x => (lensOf s (clusterOf r)).bad.contains x))
  else !bankBusy s t (pieceGranule t i l j) && !(lsReads i && t.bad.contains (pieceGranule t i l j))

/-- Take the bank of a granule, or the accumulator-row port, for this clk. -/
def takePiece (s : State) (r : Nat) (i : Instr) (l : Latch) (j : Nat) : State :=
  modTile s r (fun t => if lsAcc i then { t with accClk := s.cycle + 1 } else useBank s.cycle (pieceGranule t i l j) t)

/-- Whether every piece of an access can be served in this clk (R178, R204). -/
def lsBanksFree (s : State) (r : Nat) (i : Instr) (l : Latch) : Bool :=
  let t := tileOf s r
  (lsPieces i).all (fun j => pieceFree s r i l j
    && (lsPieces i).all (fun k => pieceGranule t i l j == pieceGranule t i l k
      || sramBank (pieceGranule t i l j) != sramBank (pieceGranule t i l k)))

/-- Record a lamp breach (R185, R215): of the breaches of one clk the lowest lamp's; while EVENTS.check stands, a later clk's
breach changes nothing (log entry 98). -/
def lampBreach (r lmp : Nat) (i : Instr) (l : Latch) (s : State) : State :=
  let t := tileOf s r
  let (as, n) := lsAccesses i l
  match as.findSome? (fun a => breach s r (lsReal t i a) n (lsStores i)) with
  | none => s
  | some tok =>
    modTile s r (fun t =>
      let t := countBreach t
      if bit t.ctrl.checkmode 1 then t
      else
        let first := !bit t.ctrl.events 36
          || (t.breachClk == s.cycle + 1 && decide (lmp < t.keeper.checkInfo.toNat / 64))
        let t := setEvent 36 t
        if first then
          { t with keeper := { t.keeper with checkInfo := BitVec.ofNat 14 (lmp * 64 + tok) }, breachClk := s.cycle + 1 }
        else t)

/-- Serve the pieces of an access in order, each where its granule has its bank in this clk: the state, what the operation
holds, its flags, the pieces left, and the granules served. `force` serves them whatever the banks do. -/
def servePieces (r : Nat) (i : Instr) (l : Latch) (force : Bool) :
    List Nat → State × List (Nat × V128) × Nat × List Nat × List Nat → State × List (Nat × V128) × Nat × List Nat × List Nat
  | [], acc => acc
  | j :: js, (s, outs, fl, left, gs) =>
    let g := pieceGranule (tileOf s r) i l j
    let open_ := gs.contains g && !lsAcc i
    if force || open_ || pieceFree s r i l j then
      let s := if open_ then s else takePiece s r i l j
      let (s, outs, f) := lsPiece r i l j outs s
      servePieces r i l force js (s, outs, fl ||| f, left, g :: gs)
    else servePieces r i l force js (s, outs, fl, left ++ [j], gs)

/-- Change an operation in flight of a lamp. -/
def modFlight (r lmp serial : Nat) (f : InFlight → InFlight) (s : State) : State :=
  modTile s r (modLamp lmp (fun x => { x with flight := x.flight.map (fun p => if p.serial = serial then f p else p) }))

/-- Serve what an access in flight has still to do in this clk (R178, R204). A breach counts once, as the access begins (R185,
R215). -/
def performFlight (r lmp : Nat) (force : Bool) (o : InFlight) (s : State) : State :=
  match o.access with
  | none => s
  | some (i, l) =>
    let s := if o.counted then s else modFlight r lmp o.serial (fun p => { p with counted := true }) (lampBreach r lmp i l s)
    let (s, outs, fl, left, gs) := servePieces r i l force o.left (s, o.outs, 0, [], [])
    if gs.isEmpty then s
    else
      let paused := (lampAt (tileOf s r) lmp).paused
      modFlight r lmp o.serial (fun p =>
        { p with outs := outs, flags := p.flags ||| BitVec.ofNat 32 fl, left := left,
                 access := if left.isEmpty then none else p.access,
                 ready := if left.isEmpty then some (if paused then 0 else s.cycle + p.lat) else none }) s

/-- Whether accesses of other lamps still come before those of a lamp (R105). -/
def comesAfter (t : Tile) (x : Lamp) : Bool := x.after.any (fun p => accessBefore t p.1 p.2)

/-- Serve the accesses in flight of a lamp for which `go` holds in this clk, each once the earlier ones have taken effect
(R104, R105, R178). -/
def lampAccesses (r lmp : Nat) (force : Bool) (go : InFlight → Bool) (s : State) : State :=
  if comesAfter (tileOf s r) (lampAt (tileOf s r) lmp) && !force then s
  else
    ((lampAt (tileOf s r) lmp).flight.filter InFlight.pending).foldl (fun s o =>
      if force || (go o && (lampAt (tileOf s r) lmp).flight.all (fun p => !p.pending || decide (o.serial ≤ p.serial))) then
        performFlight r lmp force o s else s) s

/-- Start an `ls` operation: checked at its move, served at once where its banks are free and no earlier access of the
lamp waits, otherwise as soon as they are (R104, R178). -/
def lsOp (i : Instr) (lat : Nat) (s : State) : OpRes :=
  let r := opTile s
  let lmp := opLamp s
  let l := s.bundle
  let cause := lsCause s r lmp i l
  if cause ≠ 0 then .fault cause s
  else
    let cap : List (Nat × V128) := match i with
      | .stb => upTo 8 (fun j => (j, (vreg (tileOf s r) lmp (8 * lsBank l + j)).getD 0))
      | .ldgB32 => [(20, 0)]
      | _ => []
    let g := lampGap (theTile s)
    let s := putFlight lat (fun o =>
      { o with unit := 5, mem := true, ready := none, outs := cap, access := some (i, l), left := lsPieces i }) s
    let s := match i with
      | .ldb => modThe s (fun x => { x with fills := x.fills ++ [(lsBank l, s.cycle + lat * g)] })
      | _ => s
    .ok (lampAccesses r lmp false (fun _ => true) s)

end Sys2Proof.Machine
end

