-- ==== Sys2Proof/Machine/LampCtl.lean ====
section
/-! DEFINITION. The operations of `ct` (R186 to R197): block flow, repetition, fence, register banks, links, signal. -/

namespace Sys2Proof.Machine

/-- The eight bundles of a block in SRAM (R106). -/
def readBlock (m : Mem) (a : Nat) : List Bundle := upTo 8 (fun j => BitVec.ofNat 192 (Mem.load m (a + 24 * j) 24))

/-- Lane 0 of the trigger operand (R186). -/
def ctT (s : State) : Nat := (lane s.bundle.t 32 0).toNat

/-- A block with its granule `j` replaced (R79). -/
def putCode (j : Nat) (v : V128) (code : List Bundle) : List Bundle :=
  let n := sumN (code.zipIdx.map (fun p => p.1.toNat * 2 ^ (192 * p.2)))
  let n := n - bitsN n (128 * j) 128 * 2 ^ (128 * j) + v.toNat * 2 ^ (128 * j)
  upTo 8 (fun i => BitVec.ofNat 192 (n / 2 ^ (192 * i)))

/-- Whether a granule can be read as code in this clk: its bank is free, or a lamp reads that granule as code in this clk,
which lamps fetching one block share (R79, R204; log entry 99). -/
def codeFree (s : State) (t : Tile) (a : Nat) : Bool :=
  !t.bad.contains a && (!bankBusy s t a || (t.bankClk == s.cycle && t.codeRead.contains a))

/-- Read a granule as code. -/
def useCode (now a : Nat) (t : Tile) : Tile :=
  if t.bankClk == now && t.codeRead.contains a then t
  else let t := useBank now a t; { t with codeRead := a :: t.codeRead }

/-- Read what it can of the granules of a block that are still to be read, each where its bank is free (R79, R204): the
state, the granules left, the block so far. -/
def readCode (r base : Nat) : List Nat → State × List Nat × List Bundle → State × List Nat × List Bundle
  | [], acc => acc
  | j :: js, (s, left, code) =>
    let a := base + 16 * j
    let t := tileOf s r
    if codeFree s t a then readCode r base js (modTile s r (useCode s.cycle a), left, putCode j (Mem.granule t.sram a) code)
    else readCode r base js (s, left ++ [j], code)

/-- The 12 granules of a block (R79). -/
def blockGranules : List Nat := List.range 12

/-- Read a block into the fetched-block register (R79, R188). -/
def fetchBlock (blk : Nat) (s : State) : OpRes :=
  let t := theTile s
  if (theLamp s).rep.isSome then .fault 2 s
  else if jobLimit t < blk * 256 + 192 then .fault 14 s
  else
    let (s, left, code) := readCode (opTile s) (blk * 256) blockGranules (s, [], List.replicate 8 0)
    .ok (modThe s (fun x => { x with fetched := some ⟨BitVec.ofNat 13 blk, s.cycle + 6 * lampGap t, code, left⟩ }))

def lampFetch (s : State) : OpRes := fetchBlock (ctT s / 256) s
def lampNext (s : State) : OpRes := fetchBlock ((theLamp s).block.toNat + 1) s

/-- Go on reading the blocks that a lamp waits for: the fetched block, and one that it has come to before it was there (R79,
R83). A granule that waits delays the block. -/
def lampFetches (r l : Nat) (s : State) : State :=
  let x := lampAt (tileOf s r) l
  let at_ := s.cycle + 6 * lampGap (tileOf s r)
  let s := match x.fetched with
    | some b =>
      if b.todo.isEmpty then s
      else
        let (s, left, code) := readCode r (b.block.toNat * 256) b.todo (s, [], b.code)
        modTile s r (modLamp l (fun x => { x with fetched := some { b with readyAt := at_, code := code, todo := left } }))
    | none => s
  match x.flight.find? (fun o => o.unit == 8 && !o.left.isEmpty) with
  | some o =>
    let (s, left, code) := readCode r (x.block.toNat * 256) o.left (s, [], x.code)
    modTile s r (modLamp l (fun x => { x with
      code := code,
      flight := x.flight.map (fun p => if p.serial = o.serial then
        { p with left := left, ready := if left.isEmpty then some at_ else none } else p) }))
  | none => s

/-- The end of a block (R79): the lamp continues at the fetched block, whose data may still be on its way, or stops. -/
def endBlock (r l : Nat) (s : State) : State :=
  match (lampAt (tileOf s r) l).fetched with
  | none => stopLamp r l false s
  | some b =>
    modTile s r (modLamp l (fun x =>
      let o : InFlight :=
        { serial := x.serial, unit := 8, since := s.cycle, due := x.nextAt,
          ready := if b.todo.isEmpty then some b.readyAt else none, lat := 6, outs := [], flags := 0, mem := false,
          access := none, left := b.todo, counted := false }
      { x with
        st := x.goOn, block := b.block, bundle := 0, code := b.code, fetched := none, serial := x.serial + 1,
        flight := if x.nextAt < b.readyAt ∨ b.todo ≠ [] then x.flight ++ [o] else x.flight }))

/-- A control move outside a repetition body (R86). -/
def outsideRep (f : State → State) (s : State) : OpRes :=
  if (theLamp s).rep.isSome then .fault 2 s else .ok (f s)

def lampJump (s : State) : OpRes := outsideRep (fun s => endBlock (opTile s) (opLamp s) s) s
def lampStop (s : State) : OpRes := outsideRep (fun s => stopLamp (opTile s) (opLamp s) false s) s

/-- `rep` (R85, R86, R191). -/
def lampRep (s : State) : OpRes :=
  let x := theLamp s
  let len := bitsN (ctT s) 8 4 + 1
  if x.rep.isSome || decide ((if x.fetched.isSome then 15 else 7) < x.bundle.toNat + len) then .fault 2 s
  else .ok (modThe s (fun x => { x with
    rep := some ⟨0, bitsN (ctT s) 0 8, bitsN (ctT s) 8 4, bitsN (ctT s) 12 5, 0, []⟩ }))

/-- `fence` (R192): the next bundle waits for the accesses in flight. -/
def lampFence (s : State) : OpRes :=
  .ok (modThe s (fun x => { x with
    fence := true,
    nextAt := Nat.max x.nextAt (maxN ((x.flight.filter (fun o => o.mem)).map (fun o => o.due))) }))

/-! ## Register banks (R89 to R94, R193) -/

/-- The fault of `give` and `pass` for a bank, 0 for none (R94). -/
def leaveCause (now : Nat) (x : Lamp) (b : Nat) : Nat :=
  if (x.bank b).isNone then 5 else if x.filling now b then 6 else 0

def lampGive (s : State) : OpRes :=
  let b := ctT s % 4
  let c := leaveCause s.cycle (theLamp s) b
  if c ≠ 0 then .fault c s else .ok (modTile s (opTile s) (giveBank (opLamp s) b))

/-- The lamp waits for a bank or queue (R69, R194). -/
def blockLamp (r l : Nat) (w : LampWait) (s : State) : State :=
  modTile s r (modLamp l (fun x => { x with st := .blocked, wait := w }))

/-- The place of a request in the order of issue: requests of one clk go by lamp number (R93). -/
def issueStamp (s : State) : Nat := s.cycle * 16 + opLamp s

/-- `pass` once it is granted (R89). -/
def passNow (s : State) : State := modTile s (opTile s) (passBank (opLamp s) (ctT s % 4) (bitsN (ctT s) 2 2))

def lampPass (s : State) : OpRes :=
  let t := theTile s
  let b := ctT s % 4
  let q := bitsN (ctT s) 2 2
  let c := leaveCause s.cycle (theLamp s) b
  if c ≠ 0 then .fault c s
  else if (queueOf t q).length < 16 && !t.passQ.any (fun x => x.group == q) then .ok (passNow s)
  else .wait (blockLamp (opTile s) (opLamp s) .pass (modTile s (opTile s) (fun t =>
    { t with passQ := inOrder ⟨.pass, s.bundle.lamp, b, q, issueStamp s, none⟩ t.passQ })))

/-- `claim` once it is granted: own or a loan as classified (R90). -/
def claimNow (loan : Bool) (s : State) : State := claimInto s (opTile s) (opLamp s) (ctT s % 4) loan

def lampClaim (s : State) : OpRes :=
  let t := theTile s
  let x := theLamp s
  let b := ctT s % 4
  let g := x.group.toNat
  if (vget x.ptrs b none).isSome then .fault 6 s
  else if claimOwn t g then .ok (claimNow false s)
  else if x.holdsLoan then .fault 7 s
  else if firstLoan t (issueStamp s) && claimOk t g 1 true then .ok (claimNow true s)
  else .wait (blockLamp (opTile s) (opLamp s) .claim (modTile s (opTile s)
    (enterLoan ⟨.claim, s.bundle.lamp, b, g, issueStamp s, some (0, true)⟩)))

/-- Whether a take of `q` stands before another (R93). -/
def takesWait (t : Tile) (q : Nat) : Bool := (t.takeQ ++ t.loanQ).any (fun x => x.kind == .take && x.group == q)

/-- `take` once it is granted, as a loan or own (R90). -/
def takeNow (loan : Bool) (s : State) : State :=
  modTile s (opTile s) (takeInto loan (opLamp s) (ctT s % 4) (bitsN (ctT s) 2 2))

def lampTake (s : State) : OpRes :=
  let t := theTile s
  let x := theLamp s
  let b := ctT s % 4
  let q := bitsN (ctT s) 2 2
  let g := x.group.toNat
  let req : Request := ⟨.take, s.bundle.lamp, b, q, issueStamp s, none⟩
  if (vget x.ptrs b none).isSome then .fault 6 s
  else
    match queueHead t q, takesWait t q with
    | some (_, h), false =>
      let loan := !takeOwn t g h
      if loan && x.holdsLoan then .fault 7 s
      else if takeOk t g h loan && (g == h || !loan || firstLoan t req.stamp) then .ok (takeNow loan s)
      else .wait (blockLamp (opTile s) (opLamp s) .take (modTile s (opTile s) (enterLoan { req with cls := some (h, loan) })))
    | _, _ =>
      .wait (blockLamp (opTile s) (opLamp s) .take (modTile s (opTile s) (fun t => { t with takeQ := inOrder req t.takeQ })))

/-! ## Links, link index, signal (R80, R195 to R197) -/

/-- The lamp a link destination names (R80): 0 next, 1 previous, 2 indexed. -/
def linkTarget (x : Lamp) (l : Nat) (k : Nat) : Nat :=
  match k with
  | 0 => (l + 1) % 16
  | 1 => (l + 15) % 16
  | _ => x.linkIdx.toNat

/-- An entry at its place in a link FIFO: behind those of earlier clk, and among those of its own clk by the number of the
sending lamp (R81). -/
def linkInsert (e : LinkEntry) (fifo : List LinkEntry) : List LinkEntry :=
  insertBy (fun a b => decide (a.readableAt < b.readableAt ∨ (a.readableAt = b.readableAt ∧ a.sender < b.sender))) e fifo

/-- Put an entry in a lamp's FIFO; it is readable once the sender's earlier accesses have taken effect (R195). -/
def sendLink (k : Nat) (v : V128) (serial : Nat) (s : State) : State :=
  let dst := linkTarget (theLamp s) (opLamp s) k
  modTile s (opTile s) (modLamp dst (fun x =>
    { x with fifo := linkInsert ⟨v, s.cycle + 1, s.bundle.lamp, serial⟩ x.fifo }))

/-- A link move that stalls: a FLASHED lamp freezes its scope, another goes BLOCKED alone (R81). -/
def linkStall (w : LampWait) (s : State) : State :=
  if (theLamp s).st = .flashed then s else blockLamp (opTile s) (opLamp s) w s

/-- A link send by itself. -/
def lampSend (k : Nat) (s : State) : OpRes :=
  if (lampAt (theTile s) (linkTarget (theLamp s) (opLamp s) k)).fifo.length < 2 then
    .ok (sendLink k s.bundle.t (theLamp s).serial s)
  else .wait (linkStall .linkWrite s)

/-- `signal` (R197). -/
def lampSignal (s : State) : OpRes :=
  .ok (modTile s (opTile s) (fun t =>
    setEvent (16 + opLamp s) { t with signals := vset t.signals (opLamp s) (lane s.bundle.t 32 0) }))

/-- `linkreg` (R196). -/
def lampLinkreg (s : State) : OpRes := .ok (modThe s (fun x => { x with linkIdx := s.bundle.t.extractLsb' 0 4 }))

end Sys2Proof.Machine
end

