-- ==== Sys2Proof/Machine/LampOps.lean ====
section
/-! DEFINITION. The operations of the lamps: the effect of each trigger, and the meaning of each row by itself, on the
lamp, slot and operand latches of `State.bundle` (log entry 3). -/

namespace Sys2Proof.Machine

/-! Element types of the conversions (R166). -/
def tF32 : NumTy := .flt fp32
def tF16 : NumTy := .flt fp16
def tBf16 : NumTy := .flt bf16
def tE4m3 : NumTy := .flt e4m3
def tE5m2 : NumTy := .flt e5m2
def tE2m1 : NumTy := .flt e2m1
def tS (w : Nat) : NumTy := .int true w
def tZ (w : Nat) : NumTy := .int false w

/-- The effect of a triggered operation (R117 to R124, R113), from the operand latches. Rows that are no lamp operation have
none. -/
def lampOp (i : Instr) (s : State) : OpRes :=
  match i with
  | .iaAdd u w => lampAdd u w s
  | .iaSub u w => lampSub u w s
  | .addsS u w => lampAddsS u w s
  | .addsZ u w => lampAddsZ u w s
  | .subsS u w => lampSubsS u w s
  | .subsZ u w => lampSubsZ u w s
  | .minS u w => lampMinS u w s
  | .minZ u w => lampMinZ u w s
  | .maxS u w => lampMaxS u w s
  | .maxZ u w => lampMaxZ u w s
  | .iaShl u w => lampShl u w s
  | .shrZ u w => lampShrZ u w s
  | .shrS u w => lampShrS u w s
  | .andB128 u => lampAnd u s
  | .orB128 u => lampOr u s
  | .xorB128 u => lampXor u s
  | .andnB128 u => lampAndn u s
  | .notB128 u => lampNot u s
  | .movB128 u => lampMov u s
  | .addS64 u => lampAdd64 u s
  | .subS64 u => lampSub64 u s
  | .ibMul w => lampMul w s
  | .mulwS w => lampMulw true w s
  | .mulwZ w => lampMulw false w s
  | .popcB32 => lampPopc s
  | .permB8 => lampPermB8 s
  | .permB32 => lampPermB32 s
  | .bcastB32 => lampBcast s
  | .zipl w => lampZipl w s
  | .ziph w => lampZiph w s
  | .fma ty => lampFma false false ty s
  | .fms ty => lampFma false true ty s
  | .fnma ty => lampFma true false ty s
  | .fnms ty => lampFma true true ty s
  | .fmAdd ty => lampFAdd false ty s
  | .fmSub ty => lampFAdd true ty s
  | .fmMul ty => lampFMul ty s
  | .fmMin ty => lampFMinMax false ty s
  | .fmMax ty => lampFMinMax true ty s
  | .fmAbs ty => lampSign false ty s
  | .fmNeg ty => lampSign true ty s
  | .rdflag => wordOp .rdflag s
  | .wrflag => wordOp .wrflag s
  | .rdmode => wordOp .rdmode s
  | .wrmode => wordOp .wrmode s
  | .rcp => lampSf .rcp s
  | .sqrt => lampSf .sqrt s
  | .rsqrt => lampSf .rsqrt s
  | .exp2 => lampSf .exp2 s
  | .log2 => lampSf .log2 s
  | .cvtBf16 => cvtShape .bf16 s
  | .cvtF16 => cvtShape .f16 s
  | .cvtE4m3 => cvtShape .e4m3 s
  | .cvtE5m2 => cvtShape .e5m2 s
  | .cvtE2m1 => cvtShape .e2m1 s
  | .cvtE4m3Bf16 => cvtShape .e4m3Bf16 s
  | .cvtE5m2Bf16 => cvtShape .e5m2Bf16 s
  | .cvtF16Bf16 => cvtShape .f16Bf16 s
  | .cvtS32 => cvtShape .s32 s
  | .cvtF32S32 => cvtShape .f32S32 s
  | .cvtS8S32 => cvt (tS 32) (tS 8) 16 1 s
  | .cvtS16S32 => cvt (tS 32) (tS 16) 8 1 s
  | .cvtS4S8 => cvt (tS 8) (tS 4) 32 1 s
  | .cvtZ8S32 => cvt (tS 32) (tZ 8) 16 1 s
  | .cvtSr k => cvtSrShape k s
  | .cvtF32Bf16 => cvt tBf16 tF32 8 2 s
  | .cvtF32F16 => cvt tF16 tF32 8 2 s
  | .cvtF32E4m3 => cvt tE4m3 tF32 16 4 s
  | .cvtF32E5m2 => cvt tE5m2 tF32 16 4 s
  | .cvtF32E2m1 => cvt tE2m1 tF32 16 4 s
  | .cvtBf16E4m3 => cvt tE4m3 tBf16 16 2 s
  | .cvtBf16E5m2 => cvt tE5m2 tBf16 16 2 s
  | .cvtBf16E2m1 => cvt tE2m1 tBf16 16 2 s
  | .cvtS32S8 => cvt (tS 8) (tS 32) 16 4 s
  | .cvtS32Z8 => cvt (tZ 8) (tS 32) 16 4 s
  | .cvtS32S16 => cvt (tS 16) (tS 32) 8 2 s
  | .cvtS8S4 => cvt (tS 4) (tS 8) 32 2 s
  | .cvtF32Mxi8 => cvt .mxi8 tF32 16 4 s
  | .px8E4m3 => lampPx8E4m3 s
  | .px8Bf16 => lampPx8Bf16 s
  | .planePack => lampPlanePack s
  | .planeUnpack => lampPlaneUnpack s
  | .rdrng => lampRdrng s
  | .lsLd => lsOp .lsLd 5 s
  | .lsLdSk => lsOp .lsLdSk 5 s
  | .lsSt => lsOp .lsSt 5 s
  | .lsStSk => lsOp .lsStSk 5 s
  | .ldB32 => lsOp .ldB32 5 s
  | .stB32 => lsOp .stB32 5 s
  | .ldgB32 => lsOp .ldgB32 5 s
  | .stgB32 => lsOp .stgB32 5 s
  | .ldb => lsOp .ldb 5 s
  | .stb => lsOp .stb 5 s
  | .ldacc => lsOp .ldacc 8 s
  | .ldaccCol => lsOp .ldaccCol 8 s
  | .stacc => lsOp .stacc 8 s
  | .atomAddF32 => lsOp .atomAddF32 5 s
  | .atomAddBf16 => lsOp .atomAddBf16 5 s
  | .atomAddS32 => lsOp .atomAddS32 5 s
  | .cmpEq ty => lampCmp .eq ty s
  | .cmpNe ty => lampCmp .ne ty s
  | .cmpLt ty => lampCmp .lt ty s
  | .cmpLe ty => lampCmp .le ty s
  | .anyB32 => lampAny s
  | .allB32 => lampAll s
  | .selB128 => lampSel s
  | .pand => predOp (fun x y => x && y) s
  | .por => predOp (fun x y => x || y) s
  | .pxor => predOp (fun x y => x != y) s
  | .pnot => predOp (fun _ y => !y) s
  | .maskB32 => maskOp 32 s
  | .maskB16 => maskOp 16 s
  | .maskB8 => maskOp 8 s
  | .fetch => lampFetch s
  | .next => lampNext s
  | .jump => lampJump s
  | .stop => lampStop s
  | .rep => lampRep s
  | .fence => lampFence s
  | .give => lampGive s
  | .pass => lampPass s
  | .claim => lampClaim s
  | .take => lampTake s
  | .linkNext => lampSend 0 s
  | .linkPrev => lampSend 1 s
  | .linkIdx => lampSend 2 s
  | .signal => lampSignal s
  | .linkreg => lampLinkreg s
  | _ => .ok s

def execIaAdd (u : IntUnit) (w : LaneW) (s : State) : Out := runOp (lampAdd u w s) s
def execIaSub (u : IntUnit) (w : LaneW) (s : State) : Out := runOp (lampSub u w s) s
def execAddsS (u : IntUnit) (w : LaneW) (s : State) : Out := runOp (lampAddsS u w s) s
def execAddsZ (u : IntUnit) (w : LaneW) (s : State) : Out := runOp (lampAddsZ u w s) s
def execSubsS (u : IntUnit) (w : LaneW) (s : State) : Out := runOp (lampSubsS u w s) s
def execSubsZ (u : IntUnit) (w : LaneW) (s : State) : Out := runOp (lampSubsZ u w s) s
def execMinS (u : IntUnit) (w : LaneW) (s : State) : Out := runOp (lampMinS u w s) s
def execMinZ (u : IntUnit) (w : LaneW) (s : State) : Out := runOp (lampMinZ u w s) s
def execMaxS (u : IntUnit) (w : LaneW) (s : State) : Out := runOp (lampMaxS u w s) s
def execMaxZ (u : IntUnit) (w : LaneW) (s : State) : Out := runOp (lampMaxZ u w s) s
def execIaShl (u : IntUnit) (w : LaneW) (s : State) : Out := runOp (lampShl u w s) s
def execShrZ (u : IntUnit) (w : LaneW) (s : State) : Out := runOp (lampShrZ u w s) s
def execShrS (u : IntUnit) (w : LaneW) (s : State) : Out := runOp (lampShrS u w s) s
def execAndB128 (u : IntUnit) (s : State) : Out := runOp (lampAnd u s) s
def execOrB128 (u : IntUnit) (s : State) : Out := runOp (lampOr u s) s
def execXorB128 (u : IntUnit) (s : State) : Out := runOp (lampXor u s) s
def execAndnB128 (u : IntUnit) (s : State) : Out := runOp (lampAndn u s) s
def execNotB128 (u : IntUnit) (s : State) : Out := runOp (lampNot u s) s
def execMovB128 (u : IntUnit) (s : State) : Out := runOp (lampMov u s) s
def execAddS64 (u : IntUnit) (s : State) : Out := runOp (lampAdd64 u s) s
def execSubS64 (u : IntUnit) (s : State) : Out := runOp (lampSub64 u s) s
def execIbMul (w : LaneW) (s : State) : Out := runOp (lampMul w s) s
def execMulwS (w : LaneW) (s : State) : Out := runOp (lampMulw true w s) s
def execMulwZ (w : LaneW) (s : State) : Out := runOp (lampMulw false w s) s
def execPopcB32 (s : State) : Out := runOp (lampPopc s) s
def execPermB8 (s : State) : Out := runOp (lampPermB8 s) s
def execPermB32 (s : State) : Out := runOp (lampPermB32 s) s
def execBcastB32 (s : State) : Out := runOp (lampBcast s) s
def execZipl (w : Bool) (s : State) : Out := runOp (lampZipl w s) s
def execZiph (w : Bool) (s : State) : Out := runOp (lampZiph w s) s
def execFma (ty : FmType) (s : State) : Out := runOp (lampFma false false ty s) s
def execFms (ty : FmType) (s : State) : Out := runOp (lampFma false true ty s) s
def execFnma (ty : FmType) (s : State) : Out := runOp (lampFma true false ty s) s
def execFnms (ty : FmType) (s : State) : Out := runOp (lampFma true true ty s) s
def execFmAdd (ty : FmType) (s : State) : Out := runOp (lampFAdd false ty s) s
def execFmSub (ty : FmType) (s : State) : Out := runOp (lampFAdd true ty s) s
def execFmMul (ty : FmType) (s : State) : Out := runOp (lampFMul ty s) s
def execFmMin (ty : FmType) (s : State) : Out := runOp (lampFMinMax false ty s) s
def execFmMax (ty : FmType) (s : State) : Out := runOp (lampFMinMax true ty s) s
def execFmAbs (ty : FmType) (s : State) : Out := runOp (lampSign false ty s) s
def execFmNeg (ty : FmType) (s : State) : Out := runOp (lampSign true ty s) s
def execRdflag (s : State) : Out := runOp (wordOp .rdflag s) s
def execWrflag (s : State) : Out := runOp (wordOp .wrflag s) s
def execRdmode (s : State) : Out := runOp (wordOp .rdmode s) s
def execWrmode (s : State) : Out := runOp (wordOp .wrmode s) s
def execRcp (s : State) : Out := runOp (lampSf .rcp s) s
def execSqrt (s : State) : Out := runOp (lampSf .sqrt s) s
def execRsqrt (s : State) : Out := runOp (lampSf .rsqrt s) s
def execExp2 (s : State) : Out := runOp (lampSf .exp2 s) s
def execLog2 (s : State) : Out := runOp (lampSf .log2 s) s
def execCvtBf16 (s : State) : Out := runOp (cvtShape .bf16 s) s
def execCvtF16 (s : State) : Out := runOp (cvtShape .f16 s) s
def execCvtE4m3 (s : State) : Out := runOp (cvtShape .e4m3 s) s
def execCvtE5m2 (s : State) : Out := runOp (cvtShape .e5m2 s) s
def execCvtE2m1 (s : State) : Out := runOp (cvtShape .e2m1 s) s
def execCvtE4m3Bf16 (s : State) : Out := runOp (cvtShape .e4m3Bf16 s) s
def execCvtE5m2Bf16 (s : State) : Out := runOp (cvtShape .e5m2Bf16 s) s
def execCvtF16Bf16 (s : State) : Out := runOp (cvtShape .f16Bf16 s) s
def execCvtS32 (s : State) : Out := runOp (cvtShape .s32 s) s
def execCvtF32S32 (s : State) : Out := runOp (cvtShape .f32S32 s) s
def execCvtS8S32 (s : State) : Out := runOp (cvt (tS 32) (tS 8) 16 1 s) s
def execCvtS16S32 (s : State) : Out := runOp (cvt (tS 32) (tS 16) 8 1 s) s
def execCvtS4S8 (s : State) : Out := runOp (cvt (tS 8) (tS 4) 32 1 s) s
def execCvtZ8S32 (s : State) : Out := runOp (cvt (tS 32) (tZ 8) 16 1 s) s
def execCvtSr (k : SrKind) (s : State) : Out := runOp (cvtSrShape k s) s
def execCvtF32Bf16 (s : State) : Out := runOp (cvt tBf16 tF32 8 2 s) s
def execCvtF32F16 (s : State) : Out := runOp (cvt tF16 tF32 8 2 s) s
def execCvtF32E4m3 (s : State) : Out := runOp (cvt tE4m3 tF32 16 4 s) s
def execCvtF32E5m2 (s : State) : Out := runOp (cvt tE5m2 tF32 16 4 s) s
def execCvtF32E2m1 (s : State) : Out := runOp (cvt tE2m1 tF32 16 4 s) s
def execCvtBf16E4m3 (s : State) : Out := runOp (cvt tE4m3 tBf16 16 2 s) s
def execCvtBf16E5m2 (s : State) : Out := runOp (cvt tE5m2 tBf16 16 2 s) s
def execCvtBf16E2m1 (s : State) : Out := runOp (cvt tE2m1 tBf16 16 2 s) s
def execCvtS32S8 (s : State) : Out := runOp (cvt (tS 8) (tS 32) 16 4 s) s
def execCvtS32Z8 (s : State) : Out := runOp (cvt (tZ 8) (tS 32) 16 4 s) s
def execCvtS32S16 (s : State) : Out := runOp (cvt (tS 16) (tS 32) 8 2 s) s
def execCvtS8S4 (s : State) : Out := runOp (cvt (tS 4) (tS 8) 32 2 s) s
def execCvtF32Mxi8 (s : State) : Out := runOp (cvt .mxi8 tF32 16 4 s) s
def execPx8E4m3 (s : State) : Out := runOp (lampPx8E4m3 s) s
def execPx8Bf16 (s : State) : Out := runOp (lampPx8Bf16 s) s
def execPlanePack (s : State) : Out := runOp (lampPlanePack s) s
def execPlaneUnpack (s : State) : Out := runOp (lampPlaneUnpack s) s
def execRdrng (s : State) : Out := runOp (lampRdrng s) s
def execLsLd (s : State) : Out := runOp (lsOp .lsLd 5 s) s
def execLsLdSk (s : State) : Out := runOp (lsOp .lsLdSk 5 s) s
def execLsSt (s : State) : Out := runOp (lsOp .lsSt 5 s) s
def execLsStSk (s : State) : Out := runOp (lsOp .lsStSk 5 s) s
def execLdB32 (s : State) : Out := runOp (lsOp .ldB32 5 s) s
def execStB32 (s : State) : Out := runOp (lsOp .stB32 5 s) s
def execLdgB32 (s : State) : Out := runOp (lsOp .ldgB32 5 s) s
def execStgB32 (s : State) : Out := runOp (lsOp .stgB32 5 s) s
def execLdb (s : State) : Out := runOp (lsOp .ldb 5 s) s
def execStb (s : State) : Out := runOp (lsOp .stb 5 s) s
def execLdacc (s : State) : Out := runOp (lsOp .ldacc 8 s) s
def execLdaccCol (s : State) : Out := runOp (lsOp .ldaccCol 8 s) s
def execStacc (s : State) : Out := runOp (lsOp .stacc 8 s) s
def execAtomAddF32 (s : State) : Out := runOp (lsOp .atomAddF32 5 s) s
def execAtomAddBf16 (s : State) : Out := runOp (lsOp .atomAddBf16 5 s) s
def execAtomAddS32 (s : State) : Out := runOp (lsOp .atomAddS32 5 s) s
def execCmpEq (ty : CmpType) (s : State) : Out := runOp (lampCmp .eq ty s) s
def execCmpNe (ty : CmpType) (s : State) : Out := runOp (lampCmp .ne ty s) s
def execCmpLt (ty : CmpType) (s : State) : Out := runOp (lampCmp .lt ty s) s
def execCmpLe (ty : CmpType) (s : State) : Out := runOp (lampCmp .le ty s) s
def execAnyB32 (s : State) : Out := runOp (lampAny s) s
def execAllB32 (s : State) : Out := runOp (lampAll s) s
def execSelB128 (s : State) : Out := runOp (lampSel s) s
def execPand (s : State) : Out := runOp (predOp (fun x y => x && y) s) s
def execPor (s : State) : Out := runOp (predOp (fun x y => x || y) s) s
def execPxor (s : State) : Out := runOp (predOp (fun x y => x != y) s) s
def execPnot (s : State) : Out := runOp (predOp (fun _ y => !y) s) s
def execMaskB32 (s : State) : Out := runOp (maskOp 32 s) s
def execMaskB16 (s : State) : Out := runOp (maskOp 16 s) s
def execMaskB8 (s : State) : Out := runOp (maskOp 8 s) s
def execFetch (s : State) : Out := runOp (lampFetch s) s
def execNext (s : State) : Out := runOp (lampNext s) s
def execJump (s : State) : Out := runOp (lampJump s) s
def execStop (s : State) : Out := runOp (lampStop s) s
def execRep (s : State) : Out := runOp (lampRep s) s
def execFence (s : State) : Out := runOp (lampFence s) s
def execGive (s : State) : Out := runOp (lampGive s) s
def execPass (s : State) : Out := runOp (lampPass s) s
def execClaim (s : State) : Out := runOp (lampClaim s) s
def execTake (s : State) : Out := runOp (lampTake s) s
def execLinkNext (s : State) : Out := runOp (lampSend 0 s) s
def execLinkPrev (s : State) : Out := runOp (lampSend 1 s) s
def execLinkIdx (s : State) : Out := runOp (lampSend 2 s) s
def execSignal (s : State) : Out := runOp (lampSignal s) s
def execLinkreg (s : State) : Out := runOp (lampLinkreg s) s

end Sys2Proof.Machine
end

