-- ==== Sys2Proof/Machine/Operands.lean ====
section
/-! DEFINITION. The operands of a bundle: guards (R107), sources (R109 to R112), destinations (R113, R114), the repetition
offset (R85), and the operand latches of an operation (R115). -/

namespace Sys2Proof.Machine

/-- Whether a guard holds; an immediate slot performs no move (R107). -/
def guardTrue (p : BitVec 8) (g : BitVec 4) : Bool :=
  if g = 0 then true
  else if g.toNat < 8 then p.getLsbD g.toNat
  else if g = 8 then false
  else !p.getLsbD (g.toNat - 8)

/-- A register field in pass k of a repetition (R85). -/
def offsetField (off f : Nat) : Nat := if f < 32 then (f + off) % 32 else f

/-- A move with a true guard: its slot, source and destination fields, and whether its guard is other than always. -/
structure Move where
  slot : Nat
  src : Nat
  dst : Nat
  guarded : Bool
  deriving DecidableEq, Repr

/-- The bundle a lamp stands at (R79, R85). -/
def Lamp.current (x : Lamp) : Bundle :=
  match x.rep with
  | some p => if p.pass = 0 then x.code.getD x.bundle.toNat 0 else p.body.getD p.pos 0
  | none => x.code.getD x.bundle.toNat 0

/-- The register offset of the pass in progress (R85). -/
def Lamp.offset (x : Lamp) : Nat :=
  match x.rep with
  | some p => p.stride * p.pass
  | none => 0

/-- The moves of a bundle whose guards are true (R74, R126). -/
def movesOf (x : Lamp) (b : Bundle) : List Move :=
  ((bundleSlots b).zipIdx.filter (fun p => guardTrue x.preds p.1.guard)).map (fun p =>
    ⟨p.2, offsetField x.offset p.1.src.toNat, offsetField x.offset p.1.dst.toNat, p.1.guard != 0⟩)

/-- Whether unit u has result port k (R114). -/
def resultPort (u k : Nat) : Bool :=
  match u with
  | 1 => decide (k < 2)
  | 4 => decide (k < 4)
  | 7 => false
  | _ => k == 0

/-- Whether unit u has operand port k (R114). -/
def operandPort (u k : Nat) : Bool :=
  match u with
  | 0 => k == 0
  | 1 | 2 | 5 | 6 => decide (k < 2)
  | 4 => decide (k < 4)
  | _ => false

/-- Whether a link entry can be read: in the clk after every access that its sender triggered before has taken effect
(R195). -/
def entryReadable (t : Tile) (now : Nat) (e : LinkEntry) : Bool :=
  decide (e.readableAt ≤ now)
    && (lampAt t e.sender.val).flight.all (fun o => !o.mem || decide (e.serial ≤ o.serial) || o.tookEffect now)

/-- The oldest entry of a lamp's link FIFO where it can be read (R111, R195). -/
def linkHead (t : Tile) (now l : Nat) : Option V128 :=
  match (lampAt t l).fifo with
  | e :: _ => if entryReadable t now e then some e.val else none
  | [] => none

/-- The value of a source field, or its fault cause (R109 to R112); 0 stands for a link entry that is not there yet (R112). -/
def srcVal (s : State) (r l : Nat) (b : Bundle) (f : Nat) : Except Nat V128 :=
  let t := tileOf s r
  let x := lampAt t l
  if f < 0x20 then
    match vreg t l f with
    | some v => .ok v
    | none => .error 5
  else if f < 0x28 then .ok (if x.preds.getLsbD (f - 0x20) then BitVec.allOnes 128 else 0)
  else if f = 0x28 then .ok (packLanes 32 [0, 1, 2, 3])
  else if f = 0x29 then .ok (bcast32 (BitVec.ofNat 32 l))
  else if f = 0x2A then .ok (bcast32 (t.ctrl.rank.extractLsb' 0 32))
  else if f = 0x2B then .ok (bcast32 (BitVec.ofNat 32 s.cycle))
  else if f = 0x2C then (match linkHead t s.cycle l with | some v => .ok v | none => .error 0)
  else if f = 0x2D then .ok (bcast32 (x.group.zeroExtend 32))
  else if f = 0x2E then .ok (x.preds.zeroExtend 128)
  else if 0x40 ≤ f ∧ f < 0x60 then
    if resultPort ((f - 0x40) / 4) ((f - 0x40) % 4) then .ok (vget x.ports (f - 0x40) 0) else .error 1
  else if 0x80 ≤ f ∧ f < 0x180 then .ok (bcast32 (BitVec.ofInt 32 ((f : Int) - 0x100)))
  else if 0x180 ≤ f ∧ f < 0x188 then
    let i := bundleSlot b (f - 0x180)
    if i.isImm then .ok (bcast32 (i.payload.signExtend 32)) else .error 1
  else if 0x188 ≤ f ∧ f < 0x18F then
    let i := bundleSlot b (f - 0x188)
    let j := bundleSlot b (f - 0x187)
    if i.isImm && j.isImm then .ok (bcast32 (j.payload.extractLsb' 0 12 ++ i.payload)) else .error 1
  else .error 1

/-- What a destination field names (R113). -/
inductive Dest where
  | reg (n : Nat)
  | pred (n : Nat)
  | send (k : Nat)
  | signal
  | linkreg
  | port (i : Nat)
  | trig (u : Nat) (i : Instr)
  | bad (cause : Nat)
  deriving DecidableEq, Repr

/-- The destination of a field (R113). -/
def destOf (f : Nat) : Dest :=
  if f < 0x20 then .reg f
  else if f < 0x28 then .pred (f - 0x20)
  else if f < 0x2B then .send (f - 0x28)
  else if f = 0x2B then .signal
  else if f = 0x2C then .linkreg
  else if 0x40 ≤ f ∧ f < 0x60 then
    if operandPort ((f - 0x40) / 4) ((f - 0x40) % 4) then .port (f - 0x40) else .bad 1
  else if 0x200 ≤ f then
    match decodeTrigger (BitVec.ofNat 10 f) with
    | some i => .trig ((f - 0x200) / 64) i
    | none => .bad 2
  else .bad 1

/-- A move with its destination and its value or source fault. -/
structure Eval where
  m : Move
  d : Dest
  v : Except Nat V128

/-- The value of a move, 0 where its source has none. -/
def Eval.val (e : Eval) : V128 := match e.v with | .ok v => v | .error _ => 0

/-- Whether a move has a value. -/
def Eval.there (e : Eval) : Bool := match e.v with | .ok _ => true | .error _ => false

/-- The operand ports whose values can make an operation fault, as port fields without 0x40 (R114): the float operands under
R61, the inputs of a conversion under R54, the bank number of `ldb` and `stb` (R179). -/
def faultPorts (i : Instr) : List Nat :=
  match i with
  | .fma _ | .fms _ | .fnma _ | .fnms _ => [8, 9]
  | .fmAdd _ | .fmSub _ | .fmMul _ | .fmMin _ | .fmMax _ => [8]
  | .cvtBf16 | .cvtF16 | .cvtE4m3Bf16 | .cvtE5m2Bf16 | .cvtS16S32 | .cvtS4S8 => [16]
  | .cvtE4m3 | .cvtE5m2 | .cvtE2m1 | .cvtS8S32 | .cvtZ8S32 => [16, 17, 18]
  | .cvtSr .bf16 | .cvtSr .f16 | .cvtSr .e4m3Bf16 | .cvtSr .e5m2Bf16 => [16, 19]
  | .cvtSr .e4m3 | .cvtSr .e5m2 | .cvtSr .e2m1 => [16, 17, 18, 19]
  | .cvtSr _ => [19]
  | .px8E4m3 | .px8Bf16 => [16, 17, 18]
  | .ldb | .stb => [21]
  | .cmpEq _ | .cmpNe _ | .cmpLt _ | .cmpLe _ => [24]
  | _ => []

/-- Whether everything that can make a trigger fault has a value (R112; log entry 97). -/
def operandsThere (es : List Eval) (e : Eval) (i : Instr) : Bool :=
  e.there && (faultPorts i).all (fun p => es.all (fun o => o.there || o.d != .port p))

/-- The moves of the bundle a lamp stands at, read at its start (R74). -/
def evalMoves (s : State) (r l : Nat) : List Eval :=
  let x := lampAt (tileOf s r) l
  (movesOf x x.current).map (fun m => ⟨m, destOf m.dst, srcVal s r l x.current m.src⟩)

/-- The operand latches of a bundle (R115): ports not written read as zero. -/
def latchOf (r : TileId) (l : Fin 16) (es : List Eval) : Latch :=
  let p (i : Nat) : V128 := match es.find? (fun e => e.d == .port i) with | some e => e.val | none => 0
  { tile := r, lamp := l, slot := 0, t := 0, iaA := p 0, ibA := p 4, ibB := p 5, fmA := p 8, fmB := p 9,
    cvA := p 16, cvB := p 17, cvC := p 18, lsA := p 20, lsB := p 21, prA := p 24, prB := p 25 }

/-- The state with the latches of one trigger. -/
def withTrigger (lt : Latch) (e : Eval) (s : State) : State :=
  { s with bundle := { lt with t := e.val, slot := BitVec.ofNat 3 e.m.slot } }

/-- The write of `cv.seed` that a trigger of `cv` takes (R115, R170). -/
def seedWrite (es : List Eval) : Option W32 :=
  if es.any (fun e => match e.d with | .trig 4 _ => true | _ => false) then
    (es.find? (fun e => e.d == .port 19)).map (fun e => seedOf (lane e.val 32 0))
  else none

end Sys2Proof.Machine
end

