-- ==== Sys2Proof/Machine/Flags.lean ====
section
/-! DEFINITION. The flags and mode words of a lamp at a delivery (R155, R162), and the delivery of results (R76). -/

namespace Sys2Proof.Machine

/-- What the lamp's bundle of this clk goes by: the values before an LWRITE or a `wrmode` of the clk (R162, R499). -/
def Lamp.before (x : Lamp) : LampOld := x.old.getD ⟨x.preds, x.mode, x.gen, x.linkIdx, none⟩

/-- The new flags or mode word of `wrflag` or `wrmode`, first of a clk's effects; operations that the lamp triggers in this
clk still use the old mode (R162). -/
def writeWord (o : InFlight) (x : Lamp) : Lamp :=
  match o.access with
  | some (.wrflag, l) => { x with flags := lane l.t 32 0 &&& 0x3F }
  | some (.wrmode, l) => { x with mode := lane l.t 32 0 &&& 3, old := some x.before }
  | _ => x

/-- The flags of an operation ORed in (R155). -/
def addFlags (o : InFlight) (x : Lamp) : Lamp := { x with flags := x.flags ||| o.flags }

/-- The result ports of an operation, and the read of `rdflag` or `rdmode`, last of a clk's effects (R76, R162). -/
def writePorts (o : InFlight) (x : Lamp) : Lamp :=
  match o.access with
  | some (.rdflag, _) => { x with ports := vset x.ports 8 (x.flags.zeroExtend 128) }
  | some (.rdmode, _) => { x with ports := vset x.ports 8 (x.mode.zeroExtend 128) }
  | _ => { x with ports := (o.outs.filter (fun p => decide (p.1 < 32))).foldl (fun ps p => vset ps p.1 p.2) x.ports }

/-- The registers that `ldb` fills (R179): an index of 32 or more names a register. -/
def writeFills (l : Nat) (o : InFlight) (t : Tile) : Tile :=
  (o.outs.filter (fun p => decide (32 ≤ p.1))).foldl (fun t p => putVreg l (p.1 - 32) p.2 t) t

/-- Whether an operation in flight is complete at a clk. -/
def InFlight.done (now : Nat) (o : InFlight) : Bool :=
  !o.pending && decide (o.due ≤ now) && (match o.ready with | some n => decide (n ≤ now) | none => false)

/-- Whether an operation misses the clk that its exposed latency names (R83). -/
def InFlight.late (now : Nat) (o : InFlight) : Bool := decide (o.due ≤ now) && !o.done now

/-- Deliver what a lamp's operations have complete up to the clk `upto`, in order of their clk and then of their triggers
(R76, R116). -/
def deliverLamp (now upto l : Nat) (t : Tile) : Tile :=
  let x := lampAt t l
  let ready (o : InFlight) : Bool := o.done now && decide (o.due ≤ upto)
  if x.paused then t
  else
    let os := sortBy (fun a b => decide (a.due < b.due ∨ (a.due = b.due ∧ a.serial < b.serial))) (x.flight.filter ready)
    if os.isEmpty then t
    else
      let t := os.foldl (fun t o => writeFills l o t) t
      modLamp l (fun x =>
        let x := os.foldl (fun x o => writeWord o x) x
        let x := os.foldl (fun x o => addFlags o x) x
        let x := os.foldl (fun x o => writePorts o x) x
        { x with flight := x.flight.filter (fun o => !ready o),
                 fills := x.fills.filter (fun p => decide (8 ≤ p.1 ∨ now < p.2)) }) t

end Sys2Proof.Machine
end

