-- ==== Sys2Proof/Machine/Bundle.lean ====
section
/-! DEFINITION. The execution of a lamp bundle (R74, R98, R126, R193, R194) with the freezes of R83 and R84: LAMP_BUNDLE,
FREEZE_RELEASE, RESULT_DELIVERY and LINK_STALL_RELEASE. -/

namespace Sys2Proof.Machine

/-! ## Faults of a bundle (R75, R98, R126) -/

/-- Whether two destinations are one that must not be written twice (R75). -/
def sameWrite (a b : Eval) : Bool :=
  a.m.dst == b.m.dst && (match a.d with | .send _ => false | .pred n => n != 0 | _ => true)

/-- Whether two moves trigger one unit (R75). -/
def sameUnit (a b : Eval) : Bool :=
  match a.d, b.d with
  | .trig u _, .trig v _ => u == v
  | _, _ => false

/-- Whether a repetition body bars an operation (R86). -/
def barredInBody : Instr → Bool
  | .rep | .fetch | .next | .jump | .stop => true
  | _ => false

/-- The fault causes of a move by its fields. -/
def fieldCauses (t : Tile) (now l : Nat) (e : Eval) : List Nat :=
  let x := lampAt t l
  (match e.v with | .error c => if c = 0 then [] else [c] | .ok _ => [])
    ++ (match e.d with
        | .bad c => [c]
        | .reg n => if (x.bank (n / 8)).isNone then [5] else if x.loading now (n / 8) then [6] else []
        | .trig _ i => if x.rep.isSome && barredInBody i then [2] else []
        | _ => [])

/-- A fault of a move: its slot and cause, and for the fault of an operation the operation with its state after. -/
structure MoveFault where
  slot : Nat
  cause : Nat
  op : Option (Instr × State)

/-- What the fault of an operation leaves (R54, R61, R170): the steps and the seed of a stochastic conversion, the invalid
flag of INVALID. Nothing stands of a fault that is not the one reported (log entry 100). -/
def MoveFault.standing (f : MoveFault) (s : State) : State :=
  match f.op with
  | none => s
  | some (i, after) =>
    let put (g : Lamp → Lamp) : State := modTile s (opTile after) (modLamp (opLamp after) g)
    if f.cause = 13 then put (orFlags 1)
    else match i with
      | .cvtSr _ => if f.cause = 12 then put (fun x => { x with gen := (theLamp after).gen }) else s
      | _ => s

/-- The state at a bundle's triggers: the seed is set before any of them starts (R115). -/
def seeded (r l : Nat) (es : List Eval) (s : State) : State :=
  match seedWrite es with
  | some g => modTile s r (modLamp l (fun x => { x with gen := g }))
  | none => s

/-- A move with a value in place of one that is not there. -/
def Eval.filled (x : V128) (e : Eval) : Eval := if e.there then e else { e with v := .ok x }

/-- Values tried for an operand that is not there: every bank and queue number, small integers, and a float near 1. -/
def triedValues : List V128 := bcast32 0x3F803F80 :: (List.range 16).map (fun n => bcast32 (BitVec.ofNat 32 n))

/-- The worse of two faults by cause. -/
def worseFault (a b : Nat × State) : Nat × State := if a.1 < b.1 then b else a

/-- The fault of a trigger whose operands are not all there: one that it has whatever they are (R112, R126; log entry 97). -/
def openFault (r : TileId) (l : Fin 16) (es : List Eval) (i : Instr) (e : Eval) (s : State) : Option (Nat × State) :=
  let run (x : V128) : Option (Nat × State) :=
    let es := es.map (Eval.filled x)
    match lampOp i (withTrigger (latchOf r l es) (e.filled x) (seeded r.val l.val es s)) with
    | .fault c after => some (c, after)
    | _ => none
  triedValues.foldl (fun a x => a.bind (fun p => (run x).map (worseFault p))) (run 0)

/-- The faults of one move of a bundle, `before` standing in lower slots. -/
def moveFaults (r : TileId) (l : Fin 16) (es before : List Eval) (s : State) (e : Eval) : List MoveFault :=
  let t := tileOf s r.val
  let cs := fieldCauses t s.cycle l.val e
    ++ (if before.any (fun b => sameWrite b e) then [3] else [])
    ++ (if before.any (fun b => sameUnit b e) then [4] else [])
  cs.map (fun c => ⟨e.m.slot, c, none⟩)
    ++ (match e.d with
        | .trig _ i =>
          if operandsThere es e i then
            match lampOp i (withTrigger (latchOf r l es) e (seeded r.val l.val es s)) with
            | .fault c after => [⟨e.m.slot, c, some (i, after)⟩]
            | _ => []
          else
            match openFault r l es i e s with
            | some (c, after) => [⟨e.m.slot, c, if c = 13 then some (i, after) else none⟩]
            | none => []
        | _ => [])

/-- The faults of a bundle. -/
def bundleFaults (r : TileId) (l : Fin 16) (es : List Eval) (s : State) : List MoveFault :=
  es.zipIdx.flatMap (fun p => moveFaults r l es (es.take p.2) s p.1)

/-- The fault that is reported: the lowest slot, then the lowest cause (R126). -/
def firstFault (fs : List MoveFault) : Option MoveFault :=
  match fs with
  | [] => none
  | f :: rest => some (rest.foldl (fun a b => if b.slot < a.slot ∨ (b.slot = a.slot ∧ b.cause < a.cause) then b else a) f)

/-! ## Effects of a bundle -/

/-- The trigger of `ct` among the moves. -/
def ctOf (es : List Eval) : Option (Eval × Instr) :=
  es.findSome? (fun e => match e.d with | .trig 7 i => some (e, i) | _ => none)

/-- Take the state of an operation that is known not to fault. -/
def OpRes.state (x : OpRes) : State :=
  match x with
  | .ok s => s
  | .fault _ s => s
  | .wait s => s

/-- The PC moves past a bundle (R79, R191): within a repetition the body is captured and replayed. -/
def flowOn (r l : Nat) (rep : Option Rep) (b : Bundle) (s : State) : State :=
  let next (s : State) : State :=
    if (lampAt (tileOf s r) l).bundle = 7 then endBlock r l s
    else modTile s r (modLamp l (fun x => { x with bundle := x.bundle + 1 }))
  let put (p : Option Rep) (s : State) : State := modTile s r (modLamp l (fun x => { x with rep := p }))
  match rep with
  | none => next s
  | some p =>
    let p := if p.pass = 0 then { p with body := p.body ++ [b] } else p
    if p.pos < p.len1 then
      let s := put (some { p with pos := p.pos + 1 }) s
      if p.pass = 0 then next s else s
    else if p.pass < p.n1 then put (some { p with pass := p.pass + 1, pos := 0 }) s
    else next (put none s)

/-- The writes of a bundle to registers, predicates and specials at its end (R74, R113). -/
def endWrites (r l : Nat) (es : List Eval) (s : State) : State :=
  es.foldl (fun s e =>
    match e.d with
    | .reg n => modTile s r (putVreg l n e.val)
    | .pred n => if n = 0 then s else modTile s r (modLamp l (fun x => { x with
        preds := if e.val.getLsbD 0 then x.preds ||| (1#8 <<< n) else x.preds &&& ~~~ (1#8 <<< n) }))
    | _ => s) s

/-- The link sends of a bundle in slot order, then `signal` and `linkreg` (R126, R196, R197). -/
def endSends (serial : Nat) (lt : Latch) (es : List Eval) (s : State) : State :=
  let s := es.foldl (fun s e => match e.d with | .send k => sendLink k e.val serial { s with bundle := lt } | _ => s) s
  es.foldl (fun s e =>
    match e.d with
    | .signal => (lampSignal (withTrigger lt e s)).state
    | .linkreg => (lampLinkreg (withTrigger lt e s)).state
    | _ => s) s

/-- How a `claim` or `take` is classified (R90): as its request was, or from the counts as they stand. -/
def ctLoan (i : Instr) (grant : Option Request) (s : State) : Bool :=
  let g := (theLamp s).group.toNat
  match grant.bind Request.cls, i with
  | some c, _ => c.2
  | none, .claim => !claimOwn (theTile s) g
  | none, _ => (match queueHead (theTile s) (bitsN (ctT s) 2 2) with | some (_, h) => !takeOwn (theTile s) g h | none => false)

/-- The effect of a `ct` operation at the end of a bundle that has been checked at its start (R193, R194). -/
def ctApply (i : Instr) (loan : Bool) (s : State) : State :=
  match i with
  | .give => modTile s (opTile s) (giveBank (opLamp s) (ctT s % 4))
  | .pass => passNow s
  | .claim => claimNow loan s
  | .take => takeNow loan s
  | _ => (lampOp i s).state

/-- The path of a lamp in lock-step goes on by a bundle (R77, R78): `x` is the lamp before it. -/
def countStep (r l : Nat) (x : Lamp) (s : State) : State :=
  if x.st != .flashed then s
  else modTile s r (modLamp l (fun y => { y with
    steps := x.steps + 1,
    reps := match x.rep, y.rep with
      | none, some p => if p.n1 = 0 then x.reps else x.reps ++ [(x.steps, p.n1 * (p.len1 + 1))]
      | _, _ => x.reps }))

/-- The whole effect of a bundle that neither faults nor waits (R74, R193, R194). -/
def bundleEffect (r : TileId) (l : Fin 16) (es : List Eval) (grant : Option Request) (s : State) : State :=
  let x := lampAt (tileOf s r.val) l.val
  let b := x.current
  let lt := latchOf r l es
  let ct := ctOf es
  let loan := match ct with
    | some (e, i) => ctLoan i grant (withTrigger lt e s)
    | none => false
  let s := modTile s r.val (modLamp l.val (fun x => { x with
    nextAt := s.cycle + lampGap (tileOf s r.val), fence := false,
    fifo := if es.any (fun e => e.m.src == 0x2C) then x.fifo.drop 1 else x.fifo }))
  let s := match ct with
    | some (e, .fence) => (lampFence (withTrigger lt e s)).state
    | _ => s
  let s := seeded r.val l.val es s
  let s := es.foldl (fun s e =>
    match e.d with
    | .trig u i => if u = 7 then s else (lampOp i (withTrigger lt e s)).state
    | _ => s) s
  let s := endWrites r.val l.val es s
  let s := endSends x.serial lt es s
  countStep r.val l.val x (match ct with
    | some (e, .jump) => (lampJump (withTrigger lt e s)).state
    | some (e, .stop) => (lampStop (withTrigger lt e s)).state
    | some (_, .fence) => flowOn r.val l.val x.rep b s
    | some (e, i) => flowOn r.val l.val x.rep b (ctApply i loan (withTrigger lt e s))
    | none => flowOn r.val l.val x.rep b s)

/-- Whether the bank or queue operation of a bundle has to wait (R194). -/
def ctWait (r : TileId) (l : Fin 16) (es : List Eval) (s : State) : Option State :=
  match ctOf es with
  | some (e, i) => (match lampOp i (withTrigger (latchOf r l es) e s) with | .wait s' => some s' | _ => none)
  | none => none

/-! ## An LWRITE or a `wrmode` of the same clk (R162, R303, R499) -/

/-- A workspace slot set without the undo log. -/
def rawSlot (p : Nat × V128) (t : Tile) : Tile := { t with ws := SMap.insert t.ws p.1 p.2 }

/-- The state that a lamp's bundle meets: what an LWRITE or a `wrmode` of this clk wrote is seen from the next clk on. -/
def oldView (r l : Nat) (s : State) : State :=
  match (lampAt (tileOf s r) l).old with
  | none => s
  | some o => modTile s r (fun t =>
    let t := modLamp l (fun x => { x with preds := o.preds, mode := o.mode, gen := o.gen, linkIdx := o.linkIdx }) t
    match o.reg with
    | some p => rawSlot p t
    | none => t)

/-- The predicates that a bundle writes, as a mask. -/
def predsWritten (es : List Eval) : BitVec 8 :=
  es.foldl (fun m e => match e.d with | .pred n => m ||| (1#8 <<< n) | _ => m) 0

/-- Put back what `oldView` hid, but for what the bundle itself wrote: `s0` is the state before it, `s` the state after. -/
def newView (r l : Nat) (es : List Eval) (s0 s : State) : State :=
  let x0 := lampAt (tileOf s0 r) l
  match x0.old with
  | none => s
  | some o => modTile s r (fun t =>
    let m := predsWritten es
    let t := modLamp l (fun x => { x with
      preds := (x.preds &&& m) ||| (x0.preds &&& ~~~ m), mode := x0.mode,
      gen := if x.gen = o.gen && (seedWrite es).isNone then x0.gen else x.gen,
      linkIdx := if es.any (fun e => e.d == .linkreg) then x.linkIdx else x0.linkIdx }) t
    match o.reg with
    | some (n, v) =>
      if SMap.getD t.ws n 0 = v ∧ !es.any (fun e => match e.d with
          | .reg k => (match x0.bank (k / 8) with | some w => w.block * 8 + k % 8 == n | none => false)
          | _ => false) then
        rawSlot (n, SMap.getD (tileOf s0 r).ws n 0) t
      else t
    | none => t)

/-- Execute the bundle a lamp stands at in `s`: it faults, waits, or takes effect (R98, R126, R194). A fault leaves `held`, the
state before the results of this clk are delivered (R98). -/
def runBundle (r : TileId) (l : Fin 16) (grant : Option Request) (held s : State) : State :=
  let v := oldView r.val l.val s
  let es := evalMoves v r.val l.val
  let v := { v with bundle := latchOf r l es }
  match firstFault (bundleFaults r l es v) with
  | some f => lampFault r.val l.val f.slot f.cause (f.standing { held with bundle := latchOf r l es })
  | none =>
    let v := modTile v r.val (modLamp l.val (fun x =>
      if x.st = .blocked then { x with st := x.goOn, wait := .none } else x))
    match (if grant.isSome then none else ctWait r l es v) with
    | some v' => newView r.val l.val [] s v'
    | none => newView r.val l.val es s (bundleEffect r l es grant v)

/-! ## Links and freezes of a clk (R81, R83, R84) -/

/-- The link moves that a lamp's bundle makes: whether it reads, the FIFOs it sends to, and whether the bundle waits for a bank
or queue all the same, so that it frees and takes no place (R194). -/
structure LinkNeed where
  lamp : Nat
  reads : Bool
  sends : List Nat
  waits : Bool

/-- The link moves of a lamp's bundle; none where it faults (R126). A link move that stalls is waited for before a bank or
queue (log entry 34). -/
def linkNeed (s : State) (r : TileId) (l : Fin 16) : LinkNeed :=
  let s := oldView r.val l.val s
  let x := lampAt (tileOf s r.val) l.val
  let ms := movesOf x x.current
  if ms.any (fun m => m.src == 0x2C || decide (0x28 ≤ m.dst ∧ m.dst < 0x2B)) then
    let es := evalMoves s r.val l.val
    let s := { s with bundle := latchOf r l es }
    if !(bundleFaults r l es s).isEmpty then ⟨l.val, false, [], false⟩
    else ⟨l.val, ms.any (fun m => m.src == 0x2C),
      (ms.filter (fun m => decide (0x28 ≤ m.dst ∧ m.dst < 0x2B))).map (fun m => linkTarget x l.val (m.dst - 0x28)),
      (ctWait r l es s).isSome⟩
  else ⟨l.val, false, [], false⟩

/-- Whether a lamp is among the targets of an LSTART that has yet to issue its first bundle (R299). -/
def awaitsStart (t : Tile) (l : Nat) : Bool := t.lstarts.any (fun x => x.mask.getLsbD l)

/-- Whether a lamp's bundle reads a register slot with an uncorrectable error, which is never delivered (R224). -/
def readsBadSlot (t : Tile) (l : Nat) : Bool :=
  let x := lampAt t l
  !t.badWs.isEmpty && (movesOf x x.current).any (fun m => decide (m.src < 32) && (match x.bank (m.src / 8) with
    | some w => t.badWs.contains (w.block * 8 + m.src % 8)
    | none => false))

/-- Whether a lamp is to issue a bundle in this clk unless it is held or stalled. -/
def lampDue (now : Nat) (t : Tile) (l : Nat) : Bool :=
  let x := lampAt t l
  !x.paused && !readsBadSlot t l && decide (x.nextAt ≤ now) && !awaitsStart t l
    && (x.issuing || (x.st == .blocked && (x.wait == .linkRead || x.wait == .linkWrite)))

/-- The lamps that a freeze of lamp `l` holds (R82, R83). -/
def freezeScope (t : Tile) (l : Nat) : List Nat :=
  let g := (lampAt t l).group
  (List.range 16).filter (fun n => (lampAt t n).issuing && !(lampAt t n).paused
    && (bit t.ctrl.freezescope 0 || (lampAt t n).group == g))

/-- The lamps whose link moves can be made, lowest first, when those of `readers` free a place (R80, R81, R195). -/
def linkPass (t : Tile) (now : Nat) (needs : List LinkNeed) (readers held : List Nat) : List Nat :=
  (needs.foldl (fun (acc : List Nat × List Nat) (n : LinkNeed) =>
    let room (d : Nat) : Nat := 2 + ofBool (readers.contains d) - (lampAt t d).fifo.length
    let uses (d : Nat) : Nat := (acc.2.filter (fun x => x == d)).length + (n.sends.filter (fun x => x == d)).length
    if held.contains n.lamp || (n.reads && (linkHead t now n.lamp).isNone) || n.sends.any (fun d => decide (room d < uses d))
    then acc
    else (acc.1 ++ [n.lamp], acc.2 ++ (if n.waits then [] else n.sends))) ([], [])).1

/-- Whether a lamp has a result that is late (R83). -/
def lateResult (now : Nat) (x : Lamp) : Bool := x.flight.any (InFlight.late now)

/-- The results that are there in this clk, delivered in every lamp: what the bundles of this clk read (R76). -/
def deliverAll (r : Nat) (s : State) : State :=
  modTile s r (fun t => (List.range 16).foldl (fun t l => deliverLamp s.cycle s.cycle l t) t)

/-- The lamps that issue in this clk and the freezes of it: late results first, then the link moves of FLASHED lamps, each
of which holds its scope (R81, R83). -/
def clkPlan (s : State) (r : TileId) : List Nat × List Nat :=
  let s := deliverAll r.val s
  let t := tileOf s r.val
  let late := (List.range 16).filter (fun l =>
    let x := lampAt t l
    !x.paused && x.st != .blocked && lateResult s.cycle x)
  let needs := ((List.finRange 16).filter (fun l => lampDue s.cycle t l.val)).map (linkNeed s r)
  let rec go (n : Nat) (readers froze : List Nat) : List Nat × List Nat :=
    let held := froze.flatMap (freezeScope t)
    let goers := linkPass t s.cycle needs readers held
    match n with
    | 0 => (goers, froze)
    | n + 1 =>
      let stalled := (needs.filter (fun x => (lampAt t x.lamp).st == .flashed && !goers.contains x.lamp
        && !held.contains x.lamp)).map (fun x => x.lamp)
      go n ((needs.filter (fun x => x.reads && !x.waits && goers.contains x.lamp)).map (fun x => x.lamp)) (froze ++ stalled)
  go 16 ((needs.filter (fun x => x.reads && !x.waits)).map (fun x => x.lamp)) late

/-- What was held up to now goes on counting from now (R84): the operations in flight of held lamps, but for the late ones, and
their next bundles. -/
def rollFreezes (now : Nat) (t : Tile) : Tile :=
  match t.freezes with
  | [] => t
  | f :: _ =>
    let d := now - f.since
    let heldLamps := (t.freezes.flatMap (fun f => f.held)).map (fun l => l.val)
    let t := mapLamps (fun l x =>
      if heldLamps.contains l && !x.paused then
        { x.shift (fun n => if f.since < n then n + d else n) with
          flight := x.flight.map (fun o =>
            if f.since < o.due || (f.since == o.due && o.done f.since) then
              { o with due := o.due + d, ready := o.ready.map (fun n => if f.since < n then n + d else n) }
            else o),
          nextAt := if f.since ≤ x.nextAt then x.nextAt + d else x.nextAt }
      else x) t
    { t with freezes := t.freezes.map (fun f => { f with since := now }) }

/-- Whether a freeze holds a lamp. -/
def frozen (t : Tile) (l : Nat) : Bool := t.freezes.any (fun f => f.held.any (fun h => h.val == l))

/-- Bring a tile's freezes to the present clk: those whose cause has cleared are released, those of this clk asserted (R83,
R84). -/
def settle (r : TileId) (s : State) : State :=
  let s := modTile s r.val (rollFreezes s.cycle)
  let froze := (clkPlan s r).2
  modTile s r.val (fun t => { t with freezes := (froze.eraseDups.filterMap (fun l =>
    if h : l < 16 then
      some ⟨⟨l, h⟩, (List.finRange 16).filter (fun n => (freezeScope t l).contains n.val), s.cycle⟩ else none)) })

/-- Whether an access of a lamp may be served in this clk: in a held lamp the late ones alone go on (R84), and in one that a
hold has found at a fence those that the fence waits for (R192). -/
def accessGoes (now : Nat) (t : Tile) (l : Nat) (o : InFlight) : Bool :=
  let x := lampAt t l
  if x.paused then x.flush else !frozen t l || decide (o.due ≤ now)

/-- Serve what a lamp has still to fetch from memory in this clk: accesses, its blocks, and the block of an LSTART whose
lowest target it is (R79, R178, R299). -/
def ownAccesses (r l : Nat) (s : State) : State :=
  let s := lampAccesses r l false (accessGoes s.cycle (tileOf s r) l) s
  let t := tileOf s r
  let x := lampAt t l
  let s := if !x.paused && (!frozen t l || lateResult s.cycle x) then lampFetches r l s else s
  lampStarts r l s
where
  /-- The granules of the blocks that LSTART reads, for all its targets (R299). -/
  lampStarts (r l : Nat) (s : State) : State :=
    let t := tileOf s r
    match t.lstarts.find? (fun x => !x.todo.isEmpty && decide (x.at_ < s.cycle + 6)
        && (List.range 16).find? (fun n => x.mask.getLsbD n) == some l) with
    | none => s
    | some x =>
      let y := lampAt t l
      let (s, left, code) := readCode r (y.block.toNat * 256) x.todo (s, [], y.code)
      let at_ := if left.isEmpty then s.cycle + 5 else s.cycle + 6
      modTile s r (fun t =>
        let t := { t with lstarts := t.lstarts.map (fun z => if z = x then { z with at_ := at_, todo := left } else z) }
        mapLamps (fun n z => if x.mask.getLsbD n && z.issuing then { z with code := code, nextAt := Nat.max z.nextAt at_ } else z) t)

/-- The accesses of a tile's lamps that have waited 16 clk or more go first, the longest-waiting one before the others
(R204). -/
def agedAccesses (r : Nat) (s : State) : State :=
  let t := tileOf s r
  let old := (List.range 16).flatMap (fun l => ((lampAt t l).flight.filter (fun o =>
    o.pending && decide (o.since + 16 ≤ s.cycle))).map (fun o => (l, o.since)))
  (sortBy (fun a b => decide (a.2 < b.2)) old).foldl (fun s p =>
    lampAccesses r p.1 false (fun o => decide (o.since + 16 ≤ s.cycle) && accessGoes s.cycle (tileOf s r) p.1 o) s) s

/-- A lamp's part of a clk apart from its bundle: its accesses, and its results; in a held lamp late ones alone are delivered
(R76, R84, R178). -/
def lampQuiet (r l : Nat) (s : State) : State :=
  let s := ownAccesses r l s
  modTile s r (deliverLamp s.cycle (if frozen (tileOf s r) l then s.cycle - 1 else s.cycle) l)

/-- A lamp's part of a clk in which it issues its bundle. -/
def lampIssue (r : TileId) (l : Fin 16) (grant : Option Request) (s : State) : State :=
  let s := ownAccesses r.val l.val s
  runBundle r l grant (modTile s r.val (deliverLamp s.cycle (s.cycle - 1) l.val))
    (modTile s r.val (deliverLamp s.cycle s.cycle l.val))

/-- A lamp issues its bundle if it is due and nothing holds it (R74); a link move that cannot be made blocks a lamp that
runs on its own (R81). -/
def tryBundle (r : TileId) (l : Fin 16) (s : State) : State :=
  if tileHeld s.cycle (tileOf s r.val) then s
  else
    let s := agedAccesses r.val (settle r s)
    let t := tileOf s r.val
    let x := lampAt t l.val
    if !lampDue s.cycle t l.val || frozen t l.val then lampQuiet r.val l.val s
    else if (clkPlan s r).1.contains l.val then lampIssue r l none s
    else
      let s := lampQuiet r.val l.val s
      if x.st = .blocked ∨ x.st = .flashed then s
      else
        let w := if (linkNeed s r l).reads && (linkHead (tileOf s r.val) s.cycle l.val).isNone
          then LampWait.linkRead else LampWait.linkWrite
        blockLamp r.val l.val w s

/-- LAMP_BUNDLE (R74). -/
def execLampBundle (r : TileId) (l : Fin 16) (s : State) : Out :=
  .next (if (lampAt (tileOf s r.val) l.val).issuing then tryBundle r l s else s)

/-- LINK_STALL_RELEASE (R81): a lamp that waits for a link issues its bundle in the first clk in which it can. -/
def execLinkStallRelease (r : TileId) (l : Fin 16) (s : State) : Out :=
  .next (if (lampAt (tileOf s r.val) l.val).st = .blocked then tryBundle r l s else s)

/-- RESULT_DELIVERY (R76): a lamp's accesses and results of this clk. -/
def deliverTurn (r : TileId) (l : Fin 16) (s : State) : State := lampQuiet r.val l.val (agedAccesses r.val (settle r s))

/-- Whether a held tile still serves accesses of a lamp: those of a fence that the hold ended (R192). -/
def lampFlushes (t : Tile) (l : Nat) : Bool := (lampAt t l).flush && (lampAt t l).flight.any InFlight.pending

def execResultDelivery (r : TileId) (l : Fin 16) (s : State) : Out :=
  let t := tileOf s r.val
  .next (if tileHeld s.cycle t && !lampFlushes t l.val then s else deliverTurn r l s)

/-- FREEZE_RELEASE (R83): the lamps of freezes whose cause has cleared go on together. -/
def execFreezeRelease (r : TileId) (s : State) : Out :=
  .next (if (tileOf s r.val).freezes.isEmpty || tileHeld s.cycle (tileOf s r.val) then s else settle r s)

end Sys2Proof.Machine
end

