-- ==== Sys2Proof/Machine/Issue.lean ====
section
/-! DEFINITION. The issue of KC commands (R242): checks, tokens, the descriptor, queues; completion of copy commands (R285);
the issue of the copy commands (R286 to R295) and of LSPILL (R305). -/

namespace Sys2Proof.Machine

/-- Whether the level and the capabilities of a tile reach a KC opcode (R199, R200, R227). -/
def reachOk (t : Tile) (op : Nat) : Bool := atStation t || (op != 0x58 && (op != 0x4C || bit t.ctrl.caps 1))

/-- The command that the issuing keeper's descriptor registers hold (R242, R282), with the registers captured at issue. -/
def kcmdOf (s : State) (op : BitVec 7) (sub : BitVec 2) (k : BitVec 5) (tout tin0 tin1 : Tok) : KCmd :=
  let t := cur s
  { op := op, sub := sub, d0 := kreg s k, d1 := kreg s (k + 1), d2 := kreg s (k + 2), d3 := kreg s (k + 3),
    tout := tout, tin0 := tin0, tin1 := tin1, tin2 := (kreg s (k + 3)).extractLsb' 58 6,
    station := atStation t, job := jobOf t, rnd := t.ctrl.rndmode, cvt := t.ctrl.cvtmode, fmta := t.ctrl.fmta,
    fmtb := t.ctrl.fmtb, scla := t.ctrl.scla, sclb := t.ctrl.sclb, stamp := t.cmdStamp }

/-- IssueKC of R242: none while the target queue is full. `room` tests the queue, `enter` puts the command in. -/
def issueKC (i : Instr) (op : BitVec 7) (sub : BitVec 2) (tout : Tok) (k : BitVec 5) (tin0 tin1 : Tok)
    (room : KCmd → State → Bool) (enter : KCmd → State → State) (s : State) : Option State :=
  let c := kcmdOf s op sub k tout tin0 tin1
  if 28 < k.toNat then some (trapIllegal (wordOf i) s)
  else if !reachOk (cur s) op.toNat then some (trapPriv (wordOf i) s)
  else if tout != 0 && (tout == tin0 || tout == tin1 || tout == c.tin2) then some (trapIllegal (tout.zeroExtend 64) s)
  else if !room c s then none
  else
    some (advance (enter c (modCur s (fun t =>
      addTok c.station tout.toNat { t with cmdStamp := t.cmdStamp + 1 }))))

/-! ## Completion of copy commands (R285) -/

/-- A fault word as a further fault leaves it (R285, R337). -/
def faultWord (old : W64) (tout op reason where_ : Nat) : W64 :=
  if bit old 63 then putBit old 62 true
  else BitVec.ofNat 64 (2 ^ 63 + tout * 2 ^ 56 + op * 2 ^ 49 + reason * 2 ^ 44 + where_ % 2 ^ 32)

/-- Change the context that a command's status goes to: that of its job, or the active one for a station command. -/
def cmdCtx (c : KCmd) (f : EngineCtx → EngineCtx) (t : Tile) : Tile :=
  if c.station then { t with eng := f t.eng } else withCtx c.job f t

/-- Complete a copy command (R285): reason 0 is OK; `acc` tells a fault of accumulator memory. -/
def completeCopy (c : KCmd) (reason where_ : Nat) (acc : Bool) (t : Tile) : Tile :=
  let t := subTok c.station c.job c.tout.toNat t
  if reason = 0 then t
  else setEvent (if acc then 33 else 34) (cmdCtx c (fun e =>
    { e with copyFault := faultWord e.copyFault c.tout.toNat c.op.toNat reason where_ }) t)

/-! ## Issue of copy commands (R211, R283, R452) -/

/-- Whether the copy queue, or its station entry, has room (R211, R452). -/
def copyRoom (c : KCmd) (s : State) : Bool :=
  let t := cur s
  if c.station then t.stCopy.isNone else decide (t.eng.copyQ.length < 2)

/-- A command that fails a check at issue completes FAULT in the next clk; any other enters its queue (R283). -/
def enterCopy (c : KCmd) (s : State) : State :=
  modCur s (fun t =>
    let r := copyIssueReason t c
    if r ≠ 0 then { t with failing := t.failing ++ [(c, r, accFieldFault c && r == 1, s.cycle + 1)] }
    else if c.station then { t with stCopy := some c }
    else { t with eng := { t.eng with copyQ := t.eng.copyQ ++ [c] } })

def tryCopy (i : Instr) (op : BitVec 7) (sub : BitVec 2) (t : Tok) (k : BitVec 5) (m n : Tok) (s : State) : Option State :=
  issueKC i op sub t k m n copyRoom enterCopy s

/-- The operation, sub and operands of a copy or spill instruction. -/
def copyParts : Instr → Option (BitVec 7 × BitVec 2 × Tok × BitVec 5 × Tok × Tok)
  | .cpMove t k m n y x => some (0x40, y ++ x, t, k, m, n)
  | .cpGather t k m n => some (0x41, 0, t, k, m, n)
  | .cpScatter t k m n => some (0x42, 0, t, k, m, n)
  | .cpPlane t k m n => some (0x43, 0, t, k, m, n)
  | .cpUnplane t k m n => some (0x44, 0, t, k, m, n)
  | .cpPx8Enc t k m n => some (0x45, 0, t, k, m, n)
  | .cpPx8Dec t k m n => some (0x45, 1, t, k, m, n)
  | .cpPx8Bf16 t k m n => some (0x45, 2, t, k, m, n)
  | .cpPx8Encbf t k m n => some (0x45, 3, t, k, m, n)
  | .cpCvt t k m n => some (0x46, 0, t, k, m, n)
  | .cpAcc t k m n c => some (0x47, c.zeroExtend 2, t, k, m, n)
  | .cpTopk t k m n c => some (0x48, c.zeroExtend 2, t, k, m, n)
  | .cpFill t k m n => some (0x49, 0, t, k, m, n)
  | .lspillOut t k m n => some (0x58, 0, t, k, m, n)
  | .lspillIn t k m n => some (0x58, 1, t, k, m, n)
  | _ => none

/-- The issue of a copy or spill instruction, none while it waits. -/
def tryCopyInstr (i : Instr) (s : State) : Option State :=
  match copyParts i with
  | some (op, sub, t, k, m, n) => tryCopy i op sub t k m n s
  | none => some s

/-- The issue of a copy or spill instruction (R242, R283). -/
def issueCopy (i : Instr) (s : State) : Out := .next (orWait i s (tryCopyInstr i s))

def execCpMove (t : Tok) (k : BitVec 5) (m n : Tok) (y x : BitVec 1) (s : State) : Out := issueCopy (.cpMove t k m n y x) s
def execCpGather (t : Tok) (k : BitVec 5) (m n : Tok) (s : State) : Out := issueCopy (.cpGather t k m n) s
def execCpScatter (t : Tok) (k : BitVec 5) (m n : Tok) (s : State) : Out := issueCopy (.cpScatter t k m n) s
def execCpPlane (t : Tok) (k : BitVec 5) (m n : Tok) (s : State) : Out := issueCopy (.cpPlane t k m n) s
def execCpUnplane (t : Tok) (k : BitVec 5) (m n : Tok) (s : State) : Out := issueCopy (.cpUnplane t k m n) s
def execCpPx8Enc (t : Tok) (k : BitVec 5) (m n : Tok) (s : State) : Out := issueCopy (.cpPx8Enc t k m n) s
def execCpPx8Dec (t : Tok) (k : BitVec 5) (m n : Tok) (s : State) : Out := issueCopy (.cpPx8Dec t k m n) s
def execCpPx8Bf16 (t : Tok) (k : BitVec 5) (m n : Tok) (s : State) : Out := issueCopy (.cpPx8Bf16 t k m n) s
def execCpPx8Encbf (t : Tok) (k : BitVec 5) (m n : Tok) (s : State) : Out := issueCopy (.cpPx8Encbf t k m n) s
def execCpCvt (t : Tok) (k : BitVec 5) (m n : Tok) (s : State) : Out := issueCopy (.cpCvt t k m n) s
def execCpAcc (t : Tok) (k : BitVec 5) (m n : Tok) (c : BitVec 1) (s : State) : Out := issueCopy (.cpAcc t k m n c) s
def execCpTopk (t : Tok) (k : BitVec 5) (m n : Tok) (c : BitVec 1) (s : State) : Out := issueCopy (.cpTopk t k m n c) s
def execCpFill (t : Tok) (k : BitVec 5) (m n : Tok) (s : State) : Out := issueCopy (.cpFill t k m n) s
def execLspillOut (t : Tok) (k : BitVec 5) (m n : Tok) (s : State) : Out := issueCopy (.lspillOut t k m n) s
def execLspillIn (t : Tok) (k : BitVec 5) (m n : Tok) (s : State) : Out := issueCopy (.lspillIn t k m n) s

end Sys2Proof.Machine
end

