-- ==== Sys2Proof/Machine/Copy.lean ====
section
/-! DEFINITION. The copy engine: its commands (R284, R287 to R295), LSPILL (R305), start and completion (R283, R285, R328). -/

namespace Sys2Proof.Machine

/-- What a command does: the state it leaves, reason and place of a fault, bytes of destination written. -/
structure CopyRes where
  st : State
  reason : Nat
  where_ : Nat
  bytes : Nat
  deriving Repr

/-- Pieces of the bytes from `a` up that lie each in one granule, with fuel. -/
def piecesAux : Nat → Nat → Nat → List (Nat × Nat)
  | 0, _, _ => []
  | f + 1, a, n =>
    if n = 0 then []
    else
      let m := Nat.min n (16 - a % 16)
      (a, m) :: piecesAux f (a + m) (n - m)

/-- Pieces of the `n` bytes from `a` up that lie each in one granule. -/
def pieces (a n : Nat) : List (Nat × Nat) := piecesAux (n / 16 + 2) a n

/-- One write of a command: the address, and the bytes as a function of SRAM just before the write (R284). -/
abbrev Chunk := Nat × (Mem → List Byte)

/-- Perform writes in order (R284). -/
def putChunks (xs : List Chunk) (t : Tile) : Tile := xs.foldl (fun t x => storeBytes x.1 (x.2 t.sram) t) t

/-- Writes of a copy of `n` bytes. -/
def copyChunks (src dst n : Nat) (fs fd : Nat → Nat) : List Chunk :=
  (pieces dst n).map (fun p => (fd p.1, fun m => Mem.readN m (fs (src + (p.1 - dst))) p.2))

/-- A command that ends OK after writes to the tile. -/
def okChunks (s : State) (r : Nat) (xs : List Chunk) (n : Nat) : CopyRes := ⟨modTile s r (putChunks xs), 0, 0, n⟩

/-- CP.MOVE (R287). -/
def runMove (r : Nat) (c : KCmd) (s : State) : CopyRes :=
  let t := tileOf s r
  let fs := if c.sub.getLsbD 0 then skewMap t else id
  let fd := if c.sub.getLsbD 1 then skewMap t else id
  okChunks s r ((List.range (cN c)).flatMap (fun i =>
    copyChunks (cSrc c + i * mvSst c) (cDst c + i * mvDst c) (mvBytes c) fs fd)) (cN c * mvBytes c)

/-- CP.FILL (R295). -/
def runFill (r : Nat) (c : KCmd) (s : State) : CopyRes :=
  okChunks s r ((pieces (cDst c) (mvBytes c)).map (fun p => (p.1, fun _ => leBytes 16 (c.d2 ++ c.d2).toNat))) (mvBytes c)

/-- The rows of CP.GATHER and CP.SCATTER (R288), from row `i` on, with the rows left as fuel. -/
def runIndexed (r : Nat) (c : KCmd) (gather : Bool) : Nat → Nat → Nat → State → CopyRes
  | 0, _, n, s => ⟨s, 0, 0, n⟩
  | f + 1, i, n, s =>
    let t := tileOf s r
    let w := mvSst c
    let x := Mem.load t.sram (cLo1 c + 4 * i) 4
    let far := (if gather then cSrc c else cDst c) + x * mvDst c
    if 2 ^ 31 ≤ x then
      if gather then
        runIndexed r c gather f (i + 1) (n + w) (modTile s r (putChunks
          ((pieces (cDst c + i * w) w).map (fun p => (p.1, fun _ => List.replicate p.2 0)))))
      else runIndexed r c gather f (i + 1) n s
    else if w ≠ 0 ∧ !inBounds t c.station far w then ⟨s, 6, i, n⟩
    else
      let cs := if gather then copyChunks far (cDst c + i * w) w id id else copyChunks (cSrc c + i * w) far w id id
      runIndexed r c gather f (i + 1) (n + w) (modTile s r (putChunks cs))

/-! ### Plane layout (R40 to R42, R289) -/

/-- The item of `w` bits at bit position `w * i` from an address (R29). -/
def itemAt (m : Mem) (a w i : Nat) : Nat :=
  if w = 4 then (Mem.read m (a + i / 2)).toNat / 2 ^ (4 * (i % 2)) % 16 else Mem.load m (a + i * w / 8) (w / 8)

/-- The significand of an element in plane form (R40). -/
def sigOf (ty : NumTy) (x : Nat) : Nat :=
  match ty with
  | .flt f => (if x / 2 ^ f.m % 2 ^ f.eb = 0 then 0 else 2 ^ f.m) + x % 2 ^ f.m
  | _ => x

/-- The side item of an element (R42): sign, exponent field. -/
def sideOf (ty : NumTy) (s x : Nat) : Nat :=
  match ty with
  | .flt f => x / 2 ^ (f.m + f.eb) % 2 * 2 ^ (8 * s - 1) + x / 2 ^ f.m % 2 ^ f.eb
  | _ => 0

/-- The element of a significand and a side item (R289). -/
def fromPlanes (ty : NumTy) (s sig side : Nat) : Nat :=
  match ty with
  | .flt f => side / 2 ^ (8 * s - 1) % 2 * 2 ^ (f.m + f.eb) + side % 2 ^ f.eb * 2 ^ f.m + sig % 2 ^ f.m
  | _ => sig

/-- The bytes of a bit list of numbers 0 and 1, eight to a byte. -/
def byteOfBits (b : Nat → Nat) : Byte := BitVec.ofNat 8 (sumN (upTo 8 (fun k => b k * 2 ^ k)))

/-- Writes of one row of CP.PLANE, in rising address. -/
def planeRow (c : KCmd) (ty : NumTy) (w sw ew i : Nat) : List Chunk :=
  let k := plK c
  let el (m : Mem) (j : Nat) : Nat := if j < plKs c then itemAt m (cSrc c + i * plPitch c) ew j else 0
  let planes : List Chunk := (List.range w).flatMap (fun q =>
    (List.range (k / 128)).map (fun g =>
      (cDst c + q * (cN c * k / 8) + i * (k / 8) + 16 * g, fun m =>
        upTo 16 (fun b => byteOfBits (fun x => sigOf ty (el m (128 * g + 8 * b + x)) / 2 ^ (w - 1 - q) % 2)))))
  let side : List Chunk := if sw = 0 then [] else
    (pieces (cLo1 c + i * k * sw) (k * sw)).map (fun p =>
      (p.1, fun m => upTo p.2 (fun b =>
        let o := p.1 + b - (cLo1 c + i * k * sw)
        let j := o / sw
        BitVec.ofNat 8 ((if j < plKs c then sideOf ty sw (el m j) else 0) / 2 ^ (8 * (o % sw)) % 256))))
  sortBy (fun a b => decide (a.1 < b.1)) (planes ++ side)

/-- Writes of one row of CP.UNPLANE. -/
def unplaneRow (c : KCmd) (ty : NumTy) (w sw ew i : Nat) : List Chunk :=
  let k := plK c
  let dst := cSrc c + i * plPitch c
  let el (m : Mem) (j : Nat) : Nat :=
    let sig := sumN (upTo w (fun q =>
      (Mem.read m (cDst c + q * (cN c * k / 8) + i * (k / 8) + j / 8)).toNat / 2 ^ (j % 8) % 2 * 2 ^ (w - 1 - q)))
    fromPlanes ty sw sig (if sw = 0 then 0 else Mem.load m (cLo1 c + (i * k + j) * sw) sw)
  (pieces dst (ceilDiv (plKs c * ew) 8)).map (fun p =>
    (p.1, fun m => upTo p.2 (fun b =>
      let o := p.1 + b - dst
      BitVec.ofNat 8 (if ew = 4 then
          el m (2 * o) + 16 * (if 2 * o + 1 < plKs c then el m (2 * o + 1) else (Mem.read m (dst + o)).toNat / 16)
        else el m (o * 8 / ew) / 2 ^ (8 * (o % (ew / 8))) % 256))))

/-- CP.PLANE and CP.UNPLANE (R289). -/
def runPlane (r : Nat) (c : KCmd) (back : Bool) (s : State) : CopyRes :=
  match planeFmt (plFmt c), fmtCode (plFmt c) with
  | some (w, sw, ew), some ty =>
    if back then
      okChunks s r ((List.range (cN c)).flatMap (unplaneRow c ty w sw ew)) (cN c * ceilDiv (plKs c * ew) 8)
    else
      okChunks s r ((List.range (cN c)).flatMap (planeRow c ty w sw ew)) (w * cN c * plK c / 8 + cN c * plK c * sw)
  | _, _ => ⟨s, 0, 0, 0⟩

/-! ### PX8 (R290) -/

def copyRnd (c : KCmd) : Rnd := rndOf (fld c.rnd 2 2)
def copyTrap (c : KCmd) : Bool := bit c.cvt 1

/-- A stream with zero bytes to the end of its last granule. -/
def padStream (dst : Nat) (bs : List Byte) : List Byte := bs ++ List.replicate ((16 - (dst + bs.length) % 16) % 16) 0

/-- The blocks that `.enc` encodes. -/
def encBlocks (m : Mem) (c : KCmd) : List (List Bool) :=
  (List.range (cN c)).map (fun b =>
    px8EncodeBlock ((Mem.readN m (cSrc c + 32 * b) 32).map (fun x => x.toNat)) (Mem.load m (cLo1 c + 2 * b) 2))

/-- The blocks that `.encbf` encodes before the first overflow under TRAP. -/
def encbfBlocks (m : Mem) (c : KCmd) : Nat → Nat → List (List Bool)
  | 0, _ => []
  | f + 1, b =>
    match px8EncodeBf (copyRnd c) (copyTrap c) (upTo 32 (fun j => Mem.load m (cSrc c + 64 * b + 2 * j) 2)) with
    | none => []
    | some x => x :: encbfBlocks m c f (b + 1)

/-- Writes of a PX8 stream of `n` bytes: each granule holds its part of the stream that the source gives just before the write
(R284). -/
def streamChunks (dst n : Nat) (blocks : Mem → List (List Bool)) : List Chunk :=
  (pieces dst n).map (fun p => (p.1, fun m =>
    upTo p.2 (fun i => (padStream dst (px8Stream (blocks m))).getD (p.1 - dst + i) 0)))

/-- `.enc` (R290). -/
def runEnc (r : Nat) (c : KCmd) (s : State) : CopyRes :=
  let n := (padStream (cDst c) (px8Stream (encBlocks (tileOf s r).sram c))).length
  okChunks s r (streamChunks (cDst c) n (fun m => encBlocks m c)) n

/-- `.encbf` (R290). -/
def runEncbf (r : Nat) (c : KCmd) (s : State) : CopyRes :=
  let k := (encbfBlocks (tileOf s r).sram c (cN c) 0).length
  let n := (padStream (cDst c) (px8Stream (encbfBlocks (tileOf s r).sram c (cN c) 0))).length
  let s := modTile s r (putChunks (streamChunks (cDst c) n (fun m => encbfBlocks m c k 0)))
  ⟨s, if k < cN c then 4 else 0, if k < cN c then k else 0, n⟩

/-- The conversions of a decoded block to BF16. -/
def blockBf (c : KCmd) (x : Px8Block) : List Conv := x.elems.map (px8Bf16Elem (copyRnd c) (copyTrap c) false x.scale)

/-- The block at bit `pos` of a stream, none where it is malformed (R39). -/
def blockAt (m : Mem) (c : KCmd) (words pos : Nat) : Option Px8Block :=
  (px8DecodeBlock ((byteBits (Mem.readN m (cSrc c + 4) (4 * words))).drop pos)).map Prod.fst

/-- `.dec` and `.bf16` from block `b` and bit `pos` on (R290), with the blocks left as fuel; `words` is the count read at
start. Each granule of a block is decoded from the stream as it stands just before the write (R284). -/
def runDec (r : Nat) (c : KCmd) (bf : Bool) (words : Nat) : Nat → Nat → Nat → Nat → State → CopyRes
  | 0, _, _, n, s => ⟨s, 0, 0, n⟩
  | f + 1, b, pos, n, s =>
    match blockAt (tileOf s r).sram c words pos with
    | none => ⟨s, 5, b, n⟩
    | some x =>
      let now (m : Mem) : Px8Block := (blockAt m c words pos).getD x
      if bf then
        let ok (m : Mem) : List Conv := (blockBf c (now m)).takeWhile (fun y => !y.trap)
        let bytes (m : Mem) : List Byte := (ok m).flatMap (fun y => leBytes 2 y.bits)
        let n0 := (ok (tileOf s r).sram).length
        let s := modTile s r (putChunks ((List.range 4).map (fun g =>
          (cDst c + 64 * b + 16 * g, fun m => ((bytes m).drop (16 * g)).take 16))))
        if n0 < 32 then ⟨s, 4, 32 * b + n0, n⟩
        else runDec r c bf words f (b + 1) (pos + x.len) (n + 64) s
      else
        let s := modTile s r (putChunks ((List.range 2).map (fun g =>
            (cDst c + 32 * b + 16 * g, fun m => (((now m).elems.map (BitVec.ofNat 8)).drop (16 * g)).take 16))
          ++ [(cLo1 c + 2 * b, fun m => leBytes 2 (now m).scale)]))
        runDec r c bf words f (b + 1) (pos + x.len) (n + 34) s

/-! ### CP.CVT, CP.ACC, CP.TOPK (R291 to R294) -/

/-- The conversion of an element under a command's modes; equal formats copy the bits (R291). -/
def convElem (c : KCmd) (src dst : NumTy) (x : Nat) : Conv :=
  if src = dst then ⟨x, 0, false⟩ else convert src dst (copyRnd c) (copyTrap c) false false x

/-- The granule that converted elements of `w` bits make over what stood there; elements from the first that overflows
under TRAP on keep the old bits (R54). -/
def convGranule (w : Nat) (old : Nat) (ok : List Conv) : Nat :=
  let n := ok.length * w
  old / 2 ^ n * 2 ^ n + (ok.zipIdx.foldl (fun a p => a + p.1.bits % 2 ^ w * 2 ^ (w * p.2)) 0)

/-- CP.CVT granule by granule (R291), with the granules left as fuel. -/
def runCvt (r : Nat) (c : KCmd) (src dst : NumTy) : Nat → Nat → State → CopyRes
  | 0, g, s => ⟨s, 0, 0, 16 * g⟩
  | f + 1, g, s =>
    let m := (tileOf s r).sram
    let w := dst.width
    let n := 128 / w
    let cs := upTo n (fun i => convElem c src dst (itemAt m (cSrc c) src.width (g * n + i)))
    let ok := cs.takeWhile (fun y => !y.trap)
    let s := modTile s r (storeBytes (cDst c + 16 * g)
      (leBytes 16 (convGranule w (Mem.load m (cDst c + 16 * g) 16) ok)))
    if ok.length < n then ⟨s, 4, g * n + ok.length, 16 * g⟩ else runCvt r c src dst f (g + 1) s

/-- One row of CP.ACC from granule `g` on (R293): the row's fault position, none for a whole row. -/
def accRow (r : Nat) (c : KCmd) (src dst : NumTy) (clr : Bool) (row base : Nat) : Nat → Nat → State → Option Nat × State
  | 0, _, s => (none, s)
  | f + 1, g, s =>
    let cl := clusterOf r
    let w := dst.width
    let n := 128 / w
    let left := Nat.min n (acWds c - g * n)
    let cs := upTo left (fun i => convElem c src dst (accWord s cl row (acC0 c + g * n + i)).toNat)
    let ok := cs.takeWhile (fun y => !y.trap)
    let s := modTile s r (fun t => storeBytes (base + 16 * g)
      (leBytes 16 (convGranule w (Mem.load t.sram (base + 16 * g) 16) ok)) t)
    let s := if clr then putAccWords cl row (acC0 c + g * n) (List.replicate ok.length 0) s else s
    if ok.length < left then (some (g * n + ok.length), s) else accRow r c src dst clr row base f (g + 1) s

/-- The rows of CP.ACC (R292, R293), with the rows left as fuel. -/
def runAcc (r : Nat) (c : KCmd) (src dst : NumTy) : Nat → Nat → State → CopyRes
  | 0, i, s => ⟨s, 0, 0, i * (acWds c * dst.width / 8)⟩
  | f + 1, i, s =>
    let row := acFirst c + i
    let rank := (bankOfRow s (clusterOf r) row).st == .rank
    let clr := c.sub.getLsbD 0
    match accRow r c src dst (clr && !rank) row (cDst c + i * acPitch c) (acWds c * dst.width / 128) 0 s with
    | (some j, s) => ⟨s, 4, i * acWds c + j, i * (acWds c * dst.width / 8)⟩
    | (none, s) => runAcc r c src dst f (i + 1) (if clr && rank then clearRow (clusterOf r) row s else s)

/-- The order of pairs in CP.TOPK (R294) and of ranked lists (R331): value falling, index rising. -/
def pairBefore (a b : W32 × W32) : Bool :=
  let x := fp32.decode a.1.toNat
  let y := fp32.decode b.1.toNat
  ltVal false y x || (eqVal x y && a.2.ult b.2)

/-- The pairs of one row of CP.TOPK (R294). -/
def topkRow (c : KCmd) (ws : List W32) : List (W32 × W32) :=
  let xs := (ws.zipIdx.filter (fun p => !(fp32.decode p.1.toNat).isNan)).map (fun p =>
    (p.1, BitVec.ofNat 32 (acBase c + acC0 c + p.2)))
  let best := (sortBy pairBefore xs).take (acK c)
  best ++ List.replicate (topPairs c - best.length) (0xFF800000, 0xFFFFFFFF)

/-- The rows of CP.TOPK (R294), with the rows left as fuel. -/
def runTopk (r : Nat) (c : KCmd) : Nat → Nat → State → CopyRes
  | 0, i, s => ⟨s, 0, 0, i * 8 * topPairs c⟩
  | f + 1, i, s =>
    let cl := clusterOf r
    let row := acFirst c + i
    let out := topkRow c (upTo (acWds c) (fun j => accWord s cl row (acC0 c + j)))
    let s := modTile s r (storeBytes (cDst c + i * acPitch c)
      (out.flatMap (fun p => leBytes 4 p.1.toNat ++ leBytes 4 p.2.toNat)))
    let s := if c.sub.getLsbD 0 then putAccWords cl row (acC0 c) (List.replicate (acWds c) 0) s else s
    runTopk r c f (i + 1) s

/-! ### LSPILL (R305) -/

/-- The places of a lamp set in spill order: lamp and bank, or queue and place; with the pointer's block and whether it is
spilled. -/
def spillOrder (a : LampSet) : List ((Bool × Nat × Nat) × Nat × Bool) :=
  (List.range 16).flatMap (fun l => (List.range 4).filterMap (fun b =>
    ((vget (vget a.lamps l Lamp.reset).ptrs b none)).map (fun p => ((true, l, b), p.block, p.spilled))))
  ++ (List.range 4).flatMap (fun q => (vget a.handoff q []).zipIdx.map (fun p =>
    ((false, q, p.2), p.1.1, p.1.1 == spilledBlock)))

/-- Change the pointer or queue entry at a place. -/
def setPlace (x : Bool × Nat × Nat) (block : Nat) (spilled : Bool) (a : LampSet) : LampSet :=
  match x with
  | (true, l, b) =>
    let y := vget a.lamps l Lamp.reset
    { a with lamps := vset a.lamps l { y with ptrs := vset y.ptrs b ((vget y.ptrs b none).map (fun p =>
        { p with block := block, spilled := spilled })) } }
  | (false, q, i) =>
    let xs := vget a.handoff q []
    { a with handoff := vset a.handoff q (match xs[i]? with
        | some (_, g) => xs.set i (if spilled then spilledBlock else block, g)
        | none => xs) }

/-- LSPILL.out (R305). -/
def runSpillOut (r : Nat) (c : KCmd) (s : State) : CopyRes :=
  let xs := ((spillOrder (tileOf s r).saved).filter (fun x => !x.2.2)).take (fld c.d0 32 9)
  ⟨modTile s r (fun t => xs.zipIdx.foldl (fun t p =>
      let blk := p.1.2.1
      let t := storeBytes (cSrc c + 128 * p.2) ((List.range 8).flatMap (fun j =>
        leBytes 16 (SMap.getD t.ws (blk * 8 + j) 0).toNat)) t
      { t with saved := setPlace p.1.1 blk true t.saved, free := t.free ++ [blk] }) t), 0, 0, 128 * xs.length⟩

/-- The spilled places of the active set, in spill order. -/
def spilledPlaces (t : Tile) : List (Bool × Nat × Nat) := ((spillOrder t.act).filter (fun x => x.2.2)).map Prod.fst

/-- The fills that an LSPILL.in leaves in a bank until it completes (R94, R305). -/
def beginFill (x : Bool × Nat × Nat) (t : Tile) : Tile :=
  match x with
  | (true, l, b) => modLamp l (fun y => { y with fills := y.fills ++ [(8 + b, 0)] }) t
  | _ => t

/-- LSPILL.in at its start (R305): each spilled pointer gets a free block, whose filling has begun. -/
def claimSpilled (r : Nat) (s : State) : List Nat × State :=
  (spilledPlaces (tileOf s r)).foldl (fun (acc : List Nat × State) x =>
    match popFree acc.2 r with
    | none => acc
    | some (blk, s) => (acc.1 ++ [blk], modTile s r (fun t => beginFill x { t with act := setPlace x blk false t.act }))) ([], s)

/-- LSPILL.in at its completion (R305): the claimed blocks hold their registers. -/
def runSpillIn (r : Nat) (c : KCmd) (blocks : List Nat) (s : State) : CopyRes :=
  ⟨modTile s r (fun t =>
      mapLamps (fun _ x => { x with fills := x.fills.filter (fun p => decide (p.1 < 8)) })
        (blocks.zipIdx.foldl (fun t p =>
          fillBlock p.1 (fun j => Mem.granule t.sram (cSrc c + 128 * p.2 + 16 * j)) t) t)), 0, 0, 128 * blocks.length⟩

/-! ## Start and completion -/

/-- What a copy command does (R284 to R295, R305). -/
def copyEffect (r : Nat) (c : KCmd) (words : Nat) (blocks : List Nat) (s : State) : CopyRes :=
  match c.op.toNat with
  | 0x40 => runMove r c s
  | 0x41 => runIndexed r c true (cN c) 0 0 s
  | 0x42 => runIndexed r c false (cN c) 0 0 s
  | 0x43 => runPlane r c false s
  | 0x44 => runPlane r c true s
  | 0x45 =>
    match c.sub.toNat with
    | 0 => runEnc r c s
    | 1 => runDec r c false words (cN c) 0 0 0 s
    | 2 => runDec r c true words (cN c) 0 0 0 s
    | _ => runEncbf r c s
  | 0x46 =>
    match fmtCode (cvSf c), fmtCode (cvDf c) with
    | some a, some b => runCvt r c a b (cvN c * b.width / 128) 0 s
    | _, _ => ⟨s, 0, 0, 0⟩
  | 0x47 =>
    match fmtCode (acDf c) with
    | some d => runAcc r c (if acInt c then .int true 32 else .flt fp32) d (acRows c) 0 s
    | none => ⟨s, 0, 0, 0⟩
  | 0x48 => runTopk r c (acRows c) 0 s
  | 0x49 => runFill r c s
  | _ => if c.sub = 0 then runSpillOut r c s else runSpillIn r c blocks s

/-- The clk that a command takes (R283, R294). -/
def copyCost (c : KCmd) (bytes : Nat) : Nat :=
  Nat.max 1 (if c.op = 0x48 then acRows c * (1 + ceilDiv (8 * topPairs c) 64) else ceilDiv bytes 64)

/-- Whether a bank is allocated to the tile at a position (R325). -/
def bankMine (b : Bank) (pos : Nat) : Bool := (b.st == .sum || b.st == .rank) && b.tile == pos

/-- The reason of a copy command that fails at start (R290, R292, R293, R305, R325), 0 for none, and the word count read. -/
def copyStartReason (s : State) (r : Nat) (c : KCmd) : Nat × Nat :=
  let t := tileOf s r
  if c.op = 0x45 ∧ (c.sub = 1 ∨ c.sub = 2) then
    let words := px8Words t c
    (if inBounds t c.station (cSrc c) (4 + 4 * words) then 0 else 2, words)
  else if (c.op = 0x47 ∨ c.op = 0x48) ∧ acRows c ≠ 0 then
    let banks := (List.range 128).filter (fun b =>
      decide (acFirst c / 32 ≤ b ∧ b ≤ (acFirst c + acRows c - 1) / 32))
    let bank (b : Nat) : Bank := SMap.getD (lensOf s (clusterOf r)).banks b Bank.reset
    if !banks.all (fun b => bankMine (bank b) (posOf r) && (c.op == 0x47 || (bank b).st == .sum)) then (7, 0)
    else if banks.any (fun b => (bank b).st == .rank) && !accRaw c then (3, 0)
    else (0, 0)
  else if c.op = 0x58 ∧ c.sub = 1 ∧ phiNow t < (spilledPlaces t).length then (8, 0)
  else (0, 0)

/-- Whether a DRAIN of the tile, issued before a copy command, still has to release a row of the command's range (R328). -/
def drainBefore (s : State) (r : Nat) (c : KCmd) : Bool :=
  let t := tileOf s r
  let meets (lo n : Nat) : Bool := n != 0 && decide (lo < acFirst c + acRows c) && decide (acFirst c < lo + n)
  let whole (d : KCmd) : Bool := d.op == 0x76 && decide (d.stamp < c.stamp) && meets (fld d.d0 0 12) (fld d.d0 16 13)
  (c.op == 0x47 || c.op == 0x48)
    && ((t.eng.lensQ ++ t.stLens.toList).any whole
      || (lensOf s (clusterOf r)).accepted.any (fun a =>
        a.tile == posOf r && whole a.cmd
          && (meets (fld a.cmd.d0 0 12 + a.pos) (fld a.cmd.d0 16 13 - a.pos) || a.out.any (fun x => meets x 1))))

/-- Whether the engines of a tile may start a command of its job, or one of the station (R455, R458). -/
def mayStart (t : Tile) (station : Bool) : Bool :=
  !t.keeper.debugHalt && (station || (!t.keeper.preempted && !t.parkSeen))

/-- The next command of the copy engine: the station's entry before the job's (R210, R452). -/
def copyHead (t : Tile) : Option KCmd :=
  match t.stCopy with
  | some c => some c
  | none => if mayStart t false then t.eng.copyQ.head? else none

/-- Whether a command would read a granule with an uncorrectable error, whose data is never delivered (R224): of SRAM, or a row
of accumulator memory. -/
def readsBad (s : State) (r words : Nat) (c : KCmd) : Bool :=
  let t := tileOf s r
  t.bad.any (fun a => (touchedRanges t words c).any (fun x =>
      !x.write && decide (a < x.lo + x.n) && decide (x.lo < a + 16)))
    || (c.op == 0x58 && c.sub == 0 && t.badWs.any (fun a => (spillOrder t.saved).any (fun p => p.2.1 == a / 8)))
    || ((c.op == 0x47 || c.op == 0x48) && (lensOf s (clusterOf r)).bad.any (fun x =>
      decide (acFirst c ≤ x ∧ x < acFirst c + acRows c)))

/-- Whether the copy sequencer of a tile stands in this clk: under a freeze (R83) or a debug halt (R458). -/
def copyHeld (t : Tile) : Bool := t.keeper.debugHalt || !t.freezes.isEmpty

/-- Whether the copy sequencer of a tile stands in the clk that is in progress, under the freezes that this clk has (R83, R84). -/
def copyStands (r : TileId) (s : State) : Bool := copyHeld (tileOf (settle r s) r.val)

/-- The granules from the one of address `lo` to the one of the last of `n` bytes. -/
def spanGranules (lo n : Nat) : List Nat :=
  if n = 0 then [] else upTo ((lo + n - 1) / 16 - lo / 16 + 1) (fun i => (lo / 16 + i) * 16)

/-- The granules of `n` rows of `w` bytes at a stride. -/
def rowGranules (a n stride w : Nat) : List Nat := (List.range n).flatMap (fun i => spanGranules (a + i * stride) w)

/-- The granules of the rows that an index list names (R288). -/
def indexGranules (t : Tile) (c : KCmd) (base : Nat) : List Nat :=
  ((indexList t.sram (cLo1 c) (cN c)).filter (fun x => decide (x < 2 ^ 31))).flatMap (fun x =>
    spanGranules (base + x * mvDst c) (mvSst c))

/-- The granules of SRAM that a command reads and those that it writes, in its order; `bytes` are those it writes (R204, R283). -/
def copyGranules (t : Tile) (words bytes : Nat) (c : KCmd) : List Nat × List Nat :=
  let side (skew : Bool) (xs : List Nat) : List Nat := if skew then xs.map (skewMap t) else xs
  let all (w : Bool) : List Nat := ((touchedRanges t words c).filter (fun x => x.write == w)).flatMap (fun x => spanGranules x.lo x.n)
  match c.op.toNat with
  | 0x40 =>
    (side (c.sub.getLsbD 0) (rowGranules (cSrc c) (cN c) (mvSst c) (mvBytes c)),
     side (c.sub.getLsbD 1) (rowGranules (cDst c) (cN c) (mvDst c) (mvBytes c)))
  | 0x41 => (spanGranules (cLo1 c) (4 * cN c) ++ indexGranules t c (cSrc c), spanGranules (cDst c) (cN c * mvSst c))
  | 0x42 => (spanGranules (cLo1 c) (4 * cN c) ++ spanGranules (cSrc c) (cN c * mvSst c), indexGranules t c (cDst c))
  | 0x43 =>
    (match planeFmt (plFmt c) with
     | some (_, _, ew) => rowGranules (cSrc c) (cN c) (plPitch c) (ceilDiv (plKs c * ew) 8)
     | none => [], all true)
  | 0x44 =>
    (all false, match planeFmt (plFmt c) with
     | some (_, _, ew) => rowGranules (cSrc c) (cN c) (plPitch c) (ceilDiv (plKs c * ew) 8)
     | none => [])
  | 0x47 => ([], rowGranules (cDst c) (acRows c) (acPitch c) (acWds c * codeWidth (acDf c) / 8))
  | 0x48 => ([], rowGranules (cDst c) (acRows c) (acPitch c) (8 * topPairs c))
  | 0x58 => if c.sub = 0 then ([], spanGranules (cSrc c) bytes) else (spanGranules (cSrc c) bytes, [])
  | _ => (all false, all true)

/-- The clk in which a command reads accumulator memory, at 256 bytes a clk (R283). -/
def accTicks (c : KCmd) : Nat := if c.op = 0x47 ∨ c.op = 0x48 then ceilDiv (acRows c * acWds c * 4) 256 else 0

/-- COPY_COMMAND_START (R283): none where there is nothing to start. A command that fails a check at its start completes in the
next clk like one that writes nothing. -/
def tryCopyStart (r : TileId) (s : State) : Option State :=
  let t := tileOf s r.val
  match t.copyRun, copyHead t with
  | none, some c =>
    if copyStands r s || !inputsSet t c || t.drainSeen || drainBefore s r.val c || readsBad s r.val (px8Words t c) c then none
    else
      let s := modTile s r.val (fun t =>
        if c.station then { t with stCopy := none } else { t with eng := { t.eng with copyQ := t.eng.copyQ.drop 1 } })
      let (reason, words) := copyStartReason s r.val c
      let run (done : Nat) (fail : Option (Nat × Bool)) (blocks : List Nat) (gs : List Nat × List Nat) (acc : Nat) (s : State) : State :=
        let x : CopyRun := ⟨c, s.cycle + done, words, [], [], fail, blocks, gs.1, gs.2, [], acc, s.cycle + 1⟩
        modTile s r.val (fun t => { t with copyRun := some x })
      some (if reason ≠ 0 then run 1 (some (reason, c.op == 0x47 || c.op == 0x48)) [] ([], []) 0 s
        else
          let (blocks, s) := if c.op = 0x58 ∧ c.sub = 1 then claimSpilled r.val s else ([], s)
          let n := (copyEffect r.val c words blocks s).bytes
          run (copyCost c n) none blocks (copyGranules t words n c) (accTicks c) s)
  | _, _ => none

/-- COPY_COMMAND_START (R283). -/
def execCopyCommandStart (r : TileId) (s : State) : Out := .next (orStay s (tryCopyStart r s))

/-- Granules set to given values, without the undo log. -/
def overlay (xs : SMap V128) (t : Tile) : Tile :=
  { t with sram := xs.foldl (fun m p => Mem.writeN m p.1 (leBytes 16 p.2.toNat)) t.sram }

/-- Granules with their values in SRAM. -/
def granulesOf (t : Tile) (as : List Nat) : SMap V128 := as.map (fun a => (a, Mem.granule t.sram a))

/-- What the running command comes to (R213): it goes by the input granules it has read early as it read them, and leaves the
output granules it has written early as they stand. -/
def copyOutcome (r : Nat) (x : CopyRun) (s : State) : CopyRes :=
  let t := tileOf s r
  let e := copyEffect r x.cmd x.words x.blocks (modTile s r (overlay x.early))
  { e with st := modTile e.st r (overlay (granulesOf t (x.early.map Prod.fst ++ x.wrote))) }

/-- Whether a granule lies in a range of the running command, written or read. -/
def runTouches (t : Tile) (x : CopyRun) (a : Nat) (write : Bool) : Bool :=
  (touchedRanges t x.words x.cmd).any (fun g => g.write == write && decide (a < g.lo + g.n) && decide (g.lo < a + 16))

/-- Whether the running command may read or write a granule ahead of its end (R213): a granule that it reads and does not
write, or writes and does not read. -/
def earlyOk (t : Tile) (x : CopyRun) (a : Nat) (write : Bool) : Bool :=
  !copyHeld t && x.fail.isNone && a % 16 == 0 && runTouches t x a write && !runTouches t x a (!write)
    && !x.wrote.contains a && (SMap.find x.early a).isNone

/-- The running command reads a granule ahead of its end (R213). -/
def copyReadAt (r a : Nat) (s : State) : State :=
  let t := tileOf s r
  match t.copyRun with
  | some x =>
    if earlyOk t x a false && !t.bad.contains a then
      modTile s r (fun t => { t with copyRun := some { x with early := SMap.insert x.early a (Mem.granule t.sram a) } })
    else s
  | none => s

/-- The running command writes a granule ahead of its end (R213). -/
def copyWriteAt (r a : Nat) (s : State) : State :=
  let t := tileOf s r
  match t.copyRun with
  | some x =>
    if earlyOk t x a true then
      let v := Mem.granule (tileOf (copyOutcome r x s).st r).sram a
      modTile s r (fun t => storeGranule a v { t with copyRun := some { x with wrote := x.wrote ++ [a] } })
    else s
  | none => s

/-- COPY_COMPLETE (R285): a command that failed at issue completes in the clk after it (R283); the running one when it is done:
its writes have taken effect and its token falls. -/
def tryCopyComplete (r : TileId) (s : State) : Option State :=
  let t := tileOf s r.val
  match t.failing with
  | (c, reason, acc, due) :: rest =>
    if s.cycle < due then none
    else some (modTile s r.val (fun t => completeCopy c reason 0 acc { t with failing := rest }))
  | [] =>
    match t.copyRun with
    | some x =>
      if copyHeld t || decide (s.cycle < x.doneAt) || readsBad s r.val x.words x.cmd then none
      else match x.fail with
        | some (reason, acc) => some (modTile s r.val (fun t => completeCopy x.cmd reason 0 acc { t with copyRun := none }))
        | none =>
          let e := copyOutcome r.val x s
          some (modTile e.st r.val (fun t => completeCopy x.cmd e.reason e.where_ false { t with copyRun := none }))
    | none => none

/-- COPY_COMPLETE (R285). -/
def execCopyComplete (r : TileId) (s : State) : Out := .next (orStay s (tryCopyComplete r s))

end Sys2Proof.Machine
end

