-- ==== Sys2Proof/Machine/DoneTree.lean ====
section
/-! DEFINITION. Jobs as the lightship holds them, the done tree (R445), and the debug halt of a tile (R458). -/

namespace Sys2Proof.Machine

/-- The combination of done words (R445). -/
def combineWords (ws : List W64) : W64 :=
  BitVec.ofNat 64 (maxN (ws.map (fun w => fld w 48 16)) * 2 ^ 48
    + Nat.min (sumN (ws.map (fun w => fld w 32 16))) 0xFFFF * 2 ^ 32
    + (ws.foldl (fun a w => a ||| w.extractLsb' 0 32) (0 : W32)).toNat)

/-- The children of a unit in a job's boot tree (R444). -/
def childrenOf (j : Job) (p : Nat) : List Nat := (j.boot.filter (fun x => x.1 == p)).flatMap (fun x => x.2)

/-- The rank of the lightship in its node (R446). -/
def lsRank : Nat := 0x800

/-- Whether a unit holds every word it waits for: those of its children and, for a placed tile, its own (R445). -/
def wordsIn (j : Job) (p : Nat) : Bool :=
  (childrenOf j p).all (fun c => j.words.any (fun x => x.1 == p && x.2.1 == c)) && (p == lsRank || leafSent j p)

/-- The words a unit holds (R445). -/
def wordsAt (j : Job) (p : Nat) : List W64 := (j.words.filter (fun x => x.1 == p)).map (fun x => x.2.2)

/-- The debug halt of a tile (R458): keeper, lamps and copy sequencer stop, EVENTS.debug is set. -/
def debugHalt (r : Nat) (s : State) : State :=
  let t := tileOf s r
  if t.keeper.debugHalt then s
  else
    modTile s r (fun t =>
      let t := setEvent 39 (pauseLamps (s.cycle + 1) t)
      { t with keeper := { t.keeper with debugHalt := true },
               copyRun := t.copyRun.map (fun c => { c with doneAt := c.doneAt - s.cycle }) })

/-- The end of a debug halt (R458): the relative timing is as it was. -/
def debugResume (r : Nat) (s : State) : State :=
  let t := tileOf s r
  if !t.keeper.debugHalt then s
  else
    modTile s r (fun t =>
      let t := if t.lampsStopped then t else unpauseLamps (s.cycle + 1) t
      { t with keeper := { t.keeper with debugHalt := false },
               copyRun := t.copyRun.map (fun c => { c with doneAt := c.doneAt + s.cycle }) })

end Sys2Proof.Machine
end

