-- ==== Sys2Proof/Machine/MsgCore.lean ====
section
/-! DEFINITION. The message engines of tiles, server tiles and the lightship (R247 to R281): slots, packets, tree prefixes,
streams, the sender's side, the receiver's side. A unit is its local rank (R248). Slots of a tile: 0 to 127 of the active
context, 128 to 135 station slots, from 256 those of the parked context. -/

namespace Sys2Proof.Machine

/-- Whether a local rank has a message engine (R248). -/
def validEng (e : Nat) : Bool := decide (e < 0x420) || e == lsRank

/-- The rank of a unit of this package (R247). -/
def unitRank (s : State) (e : Nat) : W32 := s.ls.node ++ BitVec.ofNat 16 e

def nodeOf (r : W32) : BitVec 16 := r.extractLsb' 16 16
def localOf (r : W32) : Nat := r.toNat % 65536

/-- The shared part of a unit's engine. -/
def msgOf (s : State) (e : Nat) : MsgShared :=
  if e < 1024 then (tileOf s e).msg else if e < 0x420 then (serverOf s (e - 0x400)).msg else s.ls.msg

/-- Change the shared part of a unit's engine. -/
def modMsg (e : Nat) (f : MsgShared → MsgShared) (s : State) : State :=
  if e < 1024 then modTile s e (fun t => { t with msg := f t.msg })
  else if e < 0x420 then setServer s (e - 0x400) { serverOf s (e - 0x400) with msg := f (serverOf s (e - 0x400)).msg }
  else { s with ls := { s.ls with msg := f s.ls.msg } }

/-- The engine context of a server tile or of the lightship. -/
def unitCtx (s : State) (e : Nat) : EngineCtx := if e < 0x420 then (serverOf s (e - 0x400)).eng else s.ls.eng

def modUnitCtx (e : Nat) (f : EngineCtx → EngineCtx) (s : State) : State :=
  if e < 0x420 then setServer s (e - 0x400) { serverOf s (e - 0x400) with eng := f (serverOf s (e - 0x400)).eng }
  else { s with ls := { s.ls with eng := f s.ls.eng } }

/-! ## Slots -/

/-- A slot of a unit. -/
def slotAt (s : State) (e n : Nat) : Option MSlot :=
  if e < 1024 then
    let t := tileOf s e
    if n < 128 then SMap.find t.eng.slots n
    else if n < 256 then SMap.find t.stSlots (n - 128)
    else match t.parked with
      | some (_, c) => SMap.find c.slots (n - 256)
      | none => none
  else SMap.find (unitCtx s e).slots n

/-- Store a slot of a unit. -/
def putSlot (e n : Nat) (m : MSlot) (s : State) : State :=
  if e < 1024 then
    modTile s e (fun t =>
      if n < 128 then { t with eng := { t.eng with slots := SMap.insert t.eng.slots n m } }
      else if n < 256 then { t with stSlots := SMap.insert t.stSlots (n - 128) m }
      else { t with parked := t.parked.map (fun p => (p.1, { p.2 with slots := SMap.insert p.2.slots (n - 256) m })) })
  else modUnitCtx e (fun c => { c with slots := SMap.insert c.slots n m }) s

/-- Remove a slot of a server tile or of the lightship. -/
def dropSlot (e n : Nat) (s : State) : State := modUnitCtx e (fun c => { c with slots := SMap.erase c.slots n }) s

/-- All slots of a unit. -/
def slotList (s : State) (e : Nat) : List (Nat × MSlot) :=
  if e < 1024 then
    let t := tileOf s e
    t.eng.slots ++ t.stSlots.map (fun p => (p.1 + 128, p.2)) ++
      (match t.parked with
       | some (_, c) => c.slots.map (fun p => (p.1 + 256, p.2))
       | none => [])
  else (unitCtx s e).slots

/-- Whether a slot is busy (R253). -/
def MSlot.busy (m : MSlot) : Bool := m.st != .free && m.st != .complete

def MSlot.isSend (m : MSlot) : Bool :=
  match m.kind with
  | .send | .ssend | .sendTree => true
  | _ => false

/-- The code of a slot state (R254). -/
def SlotState.code : SlotState → Nat
  | .free => 0
  | .waiting => 1
  | .posted => 2
  | .header => 3
  | .data => 4
  | .ordered => 5
  | .complete => 6

/-- A word of the status record (R254). -/
def statusRec (m : Option MSlot) (word1 : Bool) : W64 :=
  match m with
  | none => 0
  | some m =>
    if word1 then BitVec.ofNat 64 (m.msgLen % 2 ^ 32 * 2 ^ 32 + m.dlvLen % 2 ^ 32)
    else BitVec.ofNat 64 (m.recPeer.toNat * 2 ^ 32 + m.recTag.toNat * 2 ^ 8 + m.st.code * 16 + m.status.toNat)

/-! ## Packets -/

/-- Put a packet on its way: it takes 3 clk to leave its unit's local port (R374, R402). -/
def emit (e : Nat) (p : Packet) (s : State) : State := modMsg e (fun m => { m with outq := m.outq ++ [(s.cycle + 3, p)] }) s

def emitAll (e : Nat) (ps : List Packet) (s : State) : State := ps.foldl (fun s p => emit e p s) s

/-- A packet without payload (R252, R372); it takes its fabric mode when it enters the mesh (R482). -/
def ctlPkt (s : State) (e : Nat) (kind : PktKind) (dst : W32) (tag : BitVec 24) (group : BitVec 12) (seq : W32)
    (job : BitVec 16) (len offset : Nat) : Packet where
  kind := kind
  src := unitRank s e
  dst := dst
  tag := tag
  group := group
  seq := seq
  len := len
  job := job
  offset := offset
  escape := false
  payload := []
  tree := []
  ordered := false
  detours := 0
  via := none

/-- A message part as packets of 4,096 bytes at rising offsets (R371); at least one. -/
def cutPkts (p : Packet) (bs : List Byte) : List Packet :=
  if bs.isEmpty then [p]
  else upTo (ceilDiv bs.length 4096) (fun i =>
    { p with offset := 4096 * i, payload := (bs.drop (4096 * i)).take 4096 })

/-! ## Trees (R485, R486) -/

abbrev Tree := List (W64 × W64)

def treeKind (w : W64) : Nat := fld w 62 2
def treeKids (w : W64) : Nat := fld w 58 4
def treeTarget (w : W64) : W32 := w.extractLsb' 0 32

/-- The length of the first `n` subtrees in preorder. -/
def spanAux : Nat → Tree → Nat
  | 0, _ => 0
  | _ + 1, [] => 0
  | n + 1, (w, _) :: r => 1 + spanAux (n + treeKids w) r

/-- The subtrees of a forest, with fuel for its length. -/
def forestAux : Nat → Tree → List Tree
  | 0, _ => []
  | _ + 1, [] => []
  | f + 1, es => es.take (spanAux 1 es) :: forestAux f (es.drop (spanAux 1 es))

def forest (es : Tree) : List Tree := forestAux es.length es

/-- The rank a tree entry stands for on the way: a DIE or NODE by a unit of it. -/
def treeDst (w : W64) : W32 :=
  match treeKind w with
  | 0 => treeTarget w
  | 1 => (treeTarget w &&& 0xFFFF0000) ||| BitVec.ofNat 32 ((treeTarget w).toNat % 4 * 256)
  | _ => treeTarget w <<< 16

/-- The packet that carries a subtree. -/
def treePkt (p : Packet) (es : Tree) : Packet :=
  match es with
  | [] => p
  | (w, x) :: _ =>
    if treeKind w = 0 then { p with dst := treeTarget w, seq := x.extractLsb' 0 32, tree := [] }
    else { p with dst := treeDst w, tree := es }

/-- Strip the entry at the front of a tree prefix (R486). -/
def stripTop (p : Packet) : List Packet :=
  match p.tree with
  | [] => [p]
  | (_, _) :: kids => (forest kids).map (treePkt p)

/-- A tree without the leaves of some ranks. -/
def pruneTree (dead : List W32) : Nat → Tree → Tree
  | 0, _ => []
  | d + 1, es => (forest es).flatMap (fun t =>
      match t with
      | [] => []
      | (w, x) :: kids =>
        if treeKind w = 0 then (if dead.contains (treeTarget w) then [] else [(w, x)])
        else
          let ks := pruneTree dead d kids
          if ks.isEmpty then [] else (putFld w 58 4 (forest ks).length, x) :: ks)

/-- The leaves of a tree in order. -/
def treeLeaves (es : Tree) : List W32 := (es.filter (fun p => treeKind p.1 == 0)).map (fun p => treeTarget p.1)

/-- The leaves' sequence numbers, written into word 1 (R486). -/
def numberTree (es : Tree) (seqs : List (W32 × W32)) : Tree :=
  es.map (fun p =>
    if treeKind p.1 = 0 then
      match seqs.find? (fun q => q.1 == treeTarget p.1) with
      | some q => (p.1, q.2.zeroExtend 64)
      | none => p
    else p)

/-- The packets of the copies for the top-level entries; a DIE of the sender's own die is expanded by its engine
(R486). -/
def treeCopies (s : State) (e : Nat) (p : Packet) (es : Tree) : List Packet :=
  (forest es).flatMap (fun t =>
    match t with
    | [] => []
    | (w, _) :: kids =>
      if treeKind w = 1 && nodeOf (treeTarget w) == s.ls.node && (treeTarget w).toNat % 4 == e / 256 then
        (forest kids).map (treePkt p)
      else [treePkt p t])

/-! ## Destination and descriptor checks (R249 to R251, R307, R485) -/

/-- Whether a send may name a destination (R250, R477). -/
def destOk (s : State) (job : BitVec 16) (station : Bool) (group : BitVec 12) (dst : W32) : Bool :=
  let l := localOf dst
  let sv := decide (0x400 ≤ l ∧ l < 0x420)
  if nodeOf dst == s.ls.node then
    if l < 0x400 then group != 0xFFF && (station || (jobTiles s job).contains l)
    else if sv then group == 0xFFF
    else l == lsRank && group != 0xFFF
  else if 0x2000 ≤ (nodeOf dst).toNat then decide (l ≤ 0xFF) && group != 0xFFF && nodeOf dst != 0xFFFF
  else if sv then group == 0xFFF
  else group != 0xFFF

/-- Whether a tree entry may stand below a parent, or at the top (R485). -/
def entryOk (own : BitVec 16) (parent : Option W64) (w : W64) : Bool :=
  let tg := treeTarget w
  let form := match treeKind w with
    | 0 => treeKids w == 0
    | 1 => decide (1 ≤ treeKids w ∧ treeKids w ≤ 8) && tg.toNat % 65536 < 4
    | 2 => decide (1 ≤ treeKids w ∧ treeKids w ≤ 8) && tg.toNat < 65536
    | _ => false
  let place := match parent with
    | none => treeKind w == 2 || nodeOf tg == own
    | some p =>
      if treeKind p = 1 then
        treeKind w == 0 && nodeOf tg == nodeOf (treeTarget p) && localOf tg / 256 == (treeTarget p).toNat % 4
          && decide (localOf tg < 0x400)
      else treeKind w == 2 || (nodeOf tg).toNat == (treeTarget p).toNat % 65536
  fld w 32 26 == 0 && form && place

/-- Whether a forest is well formed to a depth (R485). -/
def forestOk (own : BitVec 16) : Nat → Option W64 → Tree → Bool
  | 0, _, es => es.isEmpty
  | d + 1, parent, es => (forest es).all (fun t =>
      match t with
      | [] => false
      | (w, x) :: kids =>
        x == 0 && entryOk own parent w && (forest kids).length == treeKids w && forestOk own d (some w) kids)

/-- Whether a list has no repeats. -/
def allDistinct : List W32 → Bool
  | [] => true
  | x :: xs => !xs.contains x && allDistinct xs

/-- The tree that a descriptor in SRAM holds. -/
def treeAt (m : Mem) (a : Nat) : Tree :=
  upTo (Mem.load m a 8 % 128) (fun i =>
    (BitVec.ofNat 64 (Mem.load m (a + 16 + 16 * i) 8), BitVec.ofNat 64 (Mem.load m (a + 24 + 16 * i) 8)))

/-- Whether the tree descriptor of a command is well formed (R485). -/
def treeOk (s : State) (t : Tile) (c : KCmd) : Bool :=
  let a := fld c.d3 0 21
  let n := Mem.load t.sram a 8 % 128
  let es := treeAt t.sram a
  let group := c.d1.extractLsb' 24 12
  a % 16 == 0 && inBounds t c.station a 16 && decide (Mem.load t.sram a 16 = n) && decide (1 ≤ n ∧ n ≤ 64)
    && inBounds t c.station a (16 + 16 * n)
    && decide (1 ≤ (forest es).length ∧ (forest es).length ≤ 8) && forestOk s.ls.node 4 none es
    && allDistinct (treeLeaves es) && (treeLeaves es).all (destOk s c.job c.station group)

/-- The rank that a relative name stands for (R249): none off the die. -/
def relRank (s : State) (r : Nat) (w : W64) : Option W32 :=
  let x := (r % 16 : Nat) + signedN 5 (fld w 0 5)
  let y := (r % 256 / 16 : Nat) + signedN 5 (fld w 5 5)
  if fld w 10 22 ≠ 0 ∨ x < 0 ∨ 15 < x ∨ y < 0 ∨ 15 < y then none
  else some (unitRank s (r / 256 * 256 + y.toNat * 16 + x.toNat))

/-- The peer of a message command (R249, R306). -/
def peerOf (s : State) (r : Nat) (c : KCmd) : Option W32 :=
  if bit c.d0 32 then relRank s r c.d0 else some (c.d0.extractLsb' 0 32)

/-- The bytes of an element of RECV.ADD (R310). -/
def addSize (d3 : W64) : Nat := if fld d3 0 2 = 1 then 2 else 4

/-- The checks of a message command at issue (R249 to R251, R307, R309 to R311, R452, R485). -/
def msgOk (s : State) (r : Nat) (c : KCmd) : Bool :=
  let t := tileOf s r
  let tag := c.d1.extractLsb' 0 24
  let group := c.d1.extractLsb' 24 12
  let buf := fld c.d2 0 21
  let len := fld c.d2 32 22
  let general := !reservedSet c && (!c.station || decide (fld c.d1 36 7 < 8)) && decide (len ≤ 0x200000)
    && (len == 0 || inBounds t c.station buf len)
  let recv := group != 0xFFF && buf % 16 == 0
  general &&
    match peerOf s r c with
    | none => false
    | some peer =>
      match c.op.toNat with
      | 0x62 => tag != 0xFFFFFF && fld c.d0 0 33 == 0 && treeOk s t c
      | 0x63 => recv
      | 0x64 => recv && fld c.d3 0 2 != 3
      | 0x65 =>
        let b := fld c.d3 32 16
        let sc := fld c.d3 0 21
        recv && decide (1 ≤ b) &&
          (if bit c.d3 48 then decide (64 * b ≤ len)
           else decide (32 * b ≤ len) && sc % 16 == 0 && inBounds t c.station sc (2 * b))
      | _ => tag != 0xFFFFFF && destOk s c.job c.station group peer

/-- The kind of a message command (R306). -/
def msgKind (op : Nat) : MsgKind :=
  match op with
  | 0x60 => .send
  | 0x61 => .ssend
  | 0x62 => .sendTree
  | 0x63 => .recv
  | 0x64 => .recvAdd
  | _ => .recvPx8

/-- The slot of a command as it is issued (R253, R306). -/
def reqSlot (s : State) (r : Nat) (c : KCmd) : MSlot where
  kind := msgKind c.op.toNat
  st := .waiting
  status := 0
  peer := (peerOf s r c).getD 0
  anySrc := c.d0.extractLsb' 0 32 == 0xFFFFFFFF
  tag := c.d1.extractLsb' 0 24
  anyTag := c.d1.extractLsb' 0 24 == 0xFFFFFF
  group := c.d1.extractLsb' 24 12
  buf := fld c.d2 0 21
  len := fld c.d2 32 22
  d3 := c.d3
  tout := c.tout
  tin0 := c.tin0
  tin1 := c.tin1
  tin2 := c.tin2
  station := c.station
  job := if c.station then 0xFFFF else c.job
  stamp := c.stamp
  recPeer := (peerOf s r c).getD 0
  recTag := c.d1.extractLsb' 0 24
  msgLen := 0
  dlvLen := 0
  subs := []
  src := 0
  seq := 0
  mkind := .eager
  got := []
  stash := []
  ackEarly := false
  tree := []
  payload := []
  early := []
  todo := []
  units := none

/-- A slot that a server tile or the lightship uses. -/
def unitSlot (kind : MsgKind) (peer : W32) (tag : BitVec 24) (group : BitVec 12) (job : BitVec 16) (len : Nat)
    (payload : List Byte) : MSlot where
  kind := kind
  st := .waiting
  status := 0
  peer := peer
  anySrc := false
  tag := tag
  anyTag := false
  group := group
  buf := 0
  len := len
  d3 := 0
  tout := 0
  tin0 := 0
  tin1 := 0
  tin2 := 0
  station := false
  job := job
  stamp := 0
  recPeer := peer
  recTag := tag
  msgLen := 0
  dlvLen := 0
  subs := []
  src := 0
  seq := 0
  mkind := .eager
  got := []
  stash := []
  ackEarly := false
  tree := []
  payload := payload
  early := []
  todo := []
  units := none

/-- The number of a new slot of a server tile or of the lightship. -/
def newSlot (s : State) (e : Nat) : Nat := maxN ((unitCtx s e).slots.map Prod.fst) + 1

/-! ## Completion -/

/-- The descriptor of a request has arrived in the receive that took it (R423); a receive that did not end OK leaves no
request. -/
def fillRequest (n : Nat) (ok : Bool) (bs : List Byte) (qs : List ServReq) : List ServReq :=
  (qs.filter (fun q => ok || q.recv != some n)).map (fun q =>
    if q.recv = some n then { q with bytes := bs, gen := BitVec.ofNat 16 (leAt bs 4 2), recv := none } else q)

/-- The group of the station messages among the lightships of a pod (log entry 113). -/
def podGroup : BitVec 12 := 0xFFD

/-- The group of the station messages that carry images (R444; log entry 70). -/
def imageGroup : BitVec 12 := 0xFFC

/-- Whether a slot that completes has brought a tile its image (R444). -/
def bringsImage (m : MSlot) : Bool := m.station && !m.isSend && m.group == imageGroup && m.status == 0

/-- A server tile and the lightship keep the status records of their last 256 transfers for the debug window (R459, R474). -/
def keepStatus (e : Nat) (m : MSlot) (s : State) : State :=
  modMsg e (fun ms => { ms with done := (ms.done ++ [(statusRec (some m) false, statusRec (some m) true)]).drop (ms.done.length - 255) }) s

/-- A slot completes with the status and lengths it holds (R208, R253): the token and the status record together. At a
server tile a request is complete (R429) and a reply ends its request. -/
def endReq (e n : Nat) (m : MSlot) (s : State) : State :=
  let m := { m with st := .complete, todo := [] }
  if e < 1024 then
    modTile (putSlot e n m s) e (fun t =>
      let t := subTok m.station m.job m.tout.toNat t
      let t := if bringsImage m then { t with imageDone := true } else t
      if m.status = 15 ∧ (m.station ∨ m.job = jobOf t) then setEvent 35 t else t)
  else
  let s := keepStatus e m s
  if e < 0x420 then
    if m.isSend then
      let s := dropSlot e n s
      let v := serverOf s (e - 0x400)
      setServer s (e - 0x400) { v with active := v.active.filter (fun q => q.slot != some n) }
    else if m.anySrc then
      let bs := Mem.readN m.stash 0 m.dlvLen
      let s := dropSlot e n s
      let v := serverOf s (e - 0x400)
      let fill := fillRequest n (m.status == 0) bs
      setServer s (e - 0x400) { v with queued := fill v.queued, active := fill v.active }
    else putSlot e n m s
  else
    let s := dropSlot e n s
    if !m.isSend && m.group == 0xFFE && m.status == 0 then
      { s with ls := { s.ls with requests := s.ls.requests.map (fun q =>
        if q.recv = some n then { q with bytes := Mem.readN m.stash 0 m.dlvLen, recv := none } else q) } }
    else if !m.isSend && m.group == 0xFFE then
      { s with ls := { s.ls with requests := s.ls.requests.filter (fun q => q.recv != some n) } }
    else if !m.isSend && m.group == podGroup && m.status == 0 then
      { s with ls := { s.ls with podMsgs := s.ls.podMsgs ++ [(m.recPeer, Mem.readN m.stash 0 m.dlvLen)] } }
    else s

/-- Whether two slots send in one stream towards a destination. -/
def sameStream (m m' : MSlot) : Bool := m.group == m'.group && m.job == m'.job

/-- The pending fields rise or fall for the destination of a send (R386). -/
def addPending (station : Bool) (job : BitVec 16) (doms : List Nat) (up : Bool) (n : Nat) (t : Tile) : Tile :=
  let f (e : EngineCtx) : EngineCtx :=
    { e with pending := doms.foldl (fun v d => vset v d (if up then vget v d 0 + n else vget v d 0 - n)) e.pending }
  if station then { t with eng := f t.eng } else withCtx job f t

/-- One message fewer of a stream awaits its acknowledgement (R256). -/
def closeOne (peer : W32) (group : BitVec 12) (job : BitVec 16) (x : SendStream) : SendStream :=
  if x.peer = peer ∧ x.group = group ∧ x.job = job then { x with open_ := x.open_ - 1 } else x

/-- One destination of a send ends; the send completes when all have (R274, R309). -/
def endSub (e n i : Nat) (status : BitVec 4) (dlv : Nat) (s : State) : State :=
  match slotAt s e n with
  | none => s
  | some m =>
    match m.subs[i]? with
    | none => s
    | some u =>
      if u.st = .complete then s
      else
        let s := if e < 1024 then modTile s e (addPending m.station m.job u.doms false (m.len + 64)) else s
        let s := modMsg e (fun x => { x with sends := x.sends.map (closeOne u.dst m.group m.job) }) s
        let subs := m.subs.set i { u with st := .complete, status := status, dlv := dlv, retryAt := none, due := false }
        let m := { m with subs := subs }
        if subs.all (fun u => u.st == .complete) then
          endReq e n { m with status := BitVec.ofNat 4 (maxN (subs.map (fun u => u.status.toNat))), msgLen := m.len,
                               dlvLen := subs.foldl (fun a u => Nat.min a u.dlv) m.len } s
        else putSlot e n m s

/-- Change one destination of a send. -/
def modSub (e n i : Nat) (f : SubSend → SubSend) (s : State) : State :=
  match slotAt s e n with
  | none => s
  | some m => putSlot e n { m with subs := m.subs.modify i f } s

/-! ## The sender's side (R256, R262 to R269, R274, R486) -/

/-- The destinations of all sends of a unit, by slot and place. -/
def allSubs (s : State) (e : Nat) : List (Nat × Nat × MSlot × SubSend) :=
  (slotList s e).flatMap (fun p =>
    if p.2.isSend then (p.2.subs.zipIdx).map (fun q => (p.1, q.2, p.2, q.1)) else [])

/-- Whether an earlier header of a stream waits to be sent again, so that later ones stay due (R269). -/
def streamBlocked (s : State) (e : Nat) (m : MSlot) (dst : W32) : Bool :=
  (allSubs s e).any (fun q =>
    q.2.2.2.dst == dst && sameStream q.2.2.1 m && q.2.2.2.st != .complete && (q.2.2.2.retryAt.isSome || q.2.2.2.due))

/-- The header packets of one destination: EAGER with its data, once that has been read, or RTS (R263, R264). -/
def headerPkts (s : State) (e : Nat) (m : MSlot) (u : SubSend) : List Packet :=
  if u.eager && !m.todo.isEmpty then [] else
  let p := ctlPkt s e (if u.eager then .eager else .rts) u.dst m.tag m.group u.seq m.job m.len 0
  if u.eager then cutPkts p m.payload else [p]

/-- The bytes at the front of a send's buffer that it has read. -/
def readUpTo (m : MSlot) : Nat :=
  match m.todo with
  | [] => m.len
  | p :: ps => (ps.foldl (fun a q => Nat.min a q.addr) p.addr) - m.buf

/-- How far the DATA of a message of `n` bytes can go out: whole packets whose bytes have been read, from those that are out
already (R371). -/
def dataTo (m : MSlot) (sentTo n : Nat) : Nat :=
  if n ≤ readUpTo m then n else Nat.max sentTo (readUpTo m / 4096 * 4096)

/-- The DATA packets of a send that carry its bytes from `a` up to `b`, under a header (R264, R371). -/
def dataPkts (base : Packet) (m : MSlot) (a b : Nat) : List Packet :=
  if b ≤ a then [] else (cutPkts base ((m.payload.take b).drop a)).map (fun p => { p with offset := p.offset + a })

/-- The next sequence number of a stream, taken (R256). -/
def takeSeq (e : Nat) (dst : W32) (group : BitVec 12) (job : BitVec 16) (s : State) : W32 × State :=
  match (msgOf s e).sends.find? (fun x => x.peer == dst && x.group == group && x.job == job) with
  | some x =>
    (x.next, modMsg e (fun ms => { ms with sends := ms.sends.map (fun y =>
      if y.peer == dst && y.group == group && y.job == job then { y with next := y.next + 1, open_ := y.open_ + 1 } else y) }) s)
  | none => (0, modMsg e (fun ms => { ms with sends := ms.sends ++ [⟨dst, group, job, 1, 1⟩] }) s)

/-- How many of some destinations open a stream (R256). -/
def newStreams (s : State) (e : Nat) (m : MSlot) (dsts : List W32) : Nat :=
  (dsts.filter (fun d =>
    !(msgOf s e).sends.any (fun x => x.peer == d && x.group == m.group && x.job == m.job))).length

/-- The domain registers of a tile whose members include a rank (R386). -/
def domsOf (s : State) (e : Nat) (dst : W32) : List Nat :=
  if e < 1024 && nodeOf dst == s.ls.node then
    (List.range 4).filter (fun d => (domMembers s e d).contains (localOf dst))
  else []

/-- One destination of a send that starts: its sequence number and its record. -/
def startSub (e : Nat) (m : MSlot) (eager : Bool) (dst : W32) (acc : List SubSend × State) : List SubSend × State :=
  let s := acc.2
  let blocked := streamBlocked s e m dst
  let doms := domsOf s e dst
  let (seq, s) := takeSeq e dst m.group m.job s
  let s := if e < 1024 then modTile s e (addPending m.station m.job doms true (m.len + 64)) else s
  (acc.1 ++ [{ doms := doms, dst := dst, seq := seq, st := .header, eager := eager, stub := false, cts := none, acked := none,
               sentData := eager, sentTo := 0, status := 0, dlv := 0, retryAt := none, retryWait := 0, due := blocked }], s)

/-- The headers of a send that has started go out, an eager one with its data (R263, R264, R486). -/
def emitHeaders (e n : Nat) (s : State) : State :=
  match slotAt s e n with
  | none => s
  | some m =>
    let eager := m.subs.any (fun u => u.eager)
    if eager && !m.todo.isEmpty then s
    else if m.kind = .sendTree then
      let live := pruneTree ((m.subs.filter (fun u => u.due)).map (fun u => u.dst)) 4 m.tree
      let base := ctlPkt s e (if eager then .eager else .rts) 0 m.tag m.group 0 m.job m.len 0
      emitAll e ((if eager then cutPkts base m.payload else [base]).flatMap (fun p => treeCopies s e p live)) s
    else emitAll e ((m.subs.filter (fun u => !u.due)).flatMap (headerPkts s e m)) s

/-- Whether a send is the data of a request, and whether a send that has started is that request: of the same peer and job, with
the data's tag as its reply tag (R423). -/
def isRequestData (m : MSlot) : Bool := m.isSend && m.group == 0xFFF && m.tag != 0
def requestFor (m q : MSlot) : Bool :=
  q.isSend && q.group == 0xFFF && q.tag == 0 && q.st != .waiting && q.peer == m.peer && q.job == m.job
    && leAt q.payload 36 3 == m.tag.toNat

/-- The generation of the last request of a tile that data belongs to, `gen` where there is none yet (R433, R438). -/
def genOfRequest (s : State) (e : Nat) (m : MSlot) (gen : W32) : W32 :=
  let qs := (slotList s e).filter (fun p => requestFor m p.2)
  match (sortBy (fun a b => decide (b.2.stamp < a.2.stamp)) qs).head? with
  | some p => p.2.seq
  | none => gen

/-- Data that started before its request takes the generation of the request, in slot `n`, as that starts (R438). -/
def giveGen (e n : Nat) (q : MSlot) (s : State) : State :=
  if q.group ≠ 0xFFF ∨ q.tag ≠ 0 then s
  else (slotList s e).foldl (fun s p =>
    if isRequestData p.2 && p.2.busy && p.2.st != .waiting && requestFor p.2 q
        && (slotList s e).all (fun x => x.1 == n || !requestFor p.2 x.2) then
      putSlot e p.1 { p.2 with seq := q.seq } s
    else s) s

/-- A send starts (R256, R486): `m` holds its payload, and its tree where it has one; `limit` is the eager limit. The slot's
`seq` keeps the generation in force at the start, that of data the generation of its request (R438). -/
def startSend (e n : Nat) (m : MSlot) (limit : Nat) (s : State) : State :=
  let eager := m.kind != .ssend && decide (m.len ≤ limit)
  let dsts := if m.kind = .sendTree then treeLeaves m.tree else [m.peer]
  let (subs, s) := dsts.foldl (fun acc d => startSub e m eager d acc) ([], s)
  let tree := numberTree m.tree (subs.map (fun u => (u.dst, u.seq)))
  let gen : W32 := if e < 1024 then BitVec.ofNat 32 (fld (tileOf s e).ctrl.wingen 0 16) else 0
  let gen := if e < 1024 ∧ isRequestData m then genOfRequest s e m gen else gen
  let m := { m with st := .header, subs := subs, tree := tree, msgLen := m.len, seq := gen }
  let s := putSlot e n m s
  emitHeaders e n (if e < 1024 then giveGen e n m s else s)

/-- The bytes of a message as it goes out: the generation stands in bytes 4 and 5 of a request (R433). -/
def stampGen (m : MSlot) (gen : Nat) (bs : List Byte) : List Byte :=
  if m.group = 0xFFF ∧ m.tag = 0 then bs.take 4 ++ (leBytes 2 gen ++ bs.drop 6).take (bs.length - 4) else bs

/-- The bytes of a tile's send as they start: the granules it has read already as it read them (R213), the rest as SRAM holds
it, with WINGEN in a request (R433). -/
def sendBytes (t : Tile) (m : MSlot) : List Byte :=
  stampGen m (fld t.ctrl.wingen 0 16)
    (Mem.readN (m.early.foldl (fun x p => Mem.writeN x p.1 (leBytes 16 p.2.toNat)) t.sram) m.buf m.len)

/-- The reads by which a send that starts fetches its buffer, but for the granules that it has read already (R204, R213). -/
def sendPieces (now : Nat) (m : MSlot) : List Piece :=
  ((spanGranules m.buf m.len).filter (fun a => (SMap.find m.early a).isNone)).map (fun a => ⟨a, now, [], none, false⟩)

/-- Whether a granule meets the buffer of a send. -/
def inSendBuf (m : MSlot) (a : Nat) : Bool := a % 16 == 0 && decide (a < m.buf + m.len) && decide (m.buf < a + 16)

/-- The bytes of a message with those of one granule of its buffer as SRAM holds them now. -/
def reread (t : Tile) (m : MSlot) (a : Nat) : List Byte :=
  stampGen m m.seq.toNat (upTo m.payload.length (fun i =>
    if (m.buf + i) / 16 * 16 = a then Mem.read t.sram (m.buf + i) else m.payload.getD i 0))

/-- A send reads a granule of its buffer at a time of its own (R213): before its start, or, where it has yet to read it, after
it. -/
def sendReadAt (r n a : Nat) (s : State) : State :=
  match slotAt s r n with
  | none => s
  | some m =>
    if !m.isSend || !inSendBuf m a || (tileOf s r).bad.contains a then s
    else if m.st = .waiting then putSlot r n { m with early := SMap.insert m.early a (Mem.granule (tileOf s r).sram a) } s
    else if m.todo.any (fun p => p.addr == a) then
      emitReady r n (putSlot r n { m with payload := reread (tileOf s r) m a, todo := m.todo.filter (fun p => p.addr != a) } s)
    else s
where
  /-- An eager send that has read its last granule goes out. -/
  emitReady (r n : Nat) (s : State) : State :=
    match slotAt s r n with
    | some m => if m.todo.isEmpty && m.subs.any (fun u => u.eager) then emitHeaders r n s else s
    | none => s

/-- Whether a waiting slot's input tokens are set (R209). -/
def slotInputs (t : Tile) (m : MSlot) : Bool :=
  tokThere t m.station m.tin0.toNat && tokThere t m.station m.tin1.toNat && tokThere t m.station m.tin2.toNat

/-- Whether a tile's engine starts a waiting command (R256, R313, R455). -/
def slotMayStart (t : Tile) (n : Nat) (m : MSlot) : Bool :=
  decide (n < 256) && m.st == .waiting && slotInputs t m && (m.station || (!t.msg.quiesced && !t.keeper.preempted && !t.parkSeen))

/-- The DATA of a destination whose CTS is there goes out (R264). A zero-byte SSEND completes on its CTS (R265). -/
def sendData (e n i : Nat) (s : State) : State :=
  match slotAt s e n with
  | none => s
  | some m =>
    match m.subs[i]? with
    | none => s
    | some u =>
      match u.cts with
      | none => s
      | some k =>
        if m.kind = .ssend ∧ m.len = 0 then endSub e n i 0 0 s
        else if let some d := u.acked then endSub e n i (if d < m.len then 1 else 0) d s
        else
          let b := dataTo m u.sentTo k
          let s := emitAll e (dataPkts (ctlPkt s e .data u.dst m.tag m.group u.seq m.job m.len 0) m u.sentTo b) s
          let u := if b = k then { u with st := .data, sentData := true, sentTo := b } else { u with sentTo := b }
          putSlot e n { m with st := .data, subs := m.subs.set i u } s

/-- Whether a destination waits for the DATA that goes down the tree (R486). -/
def onTree (u : SubSend) : Bool := u.st == .header && !u.eager && !u.stub && !u.sentData

/-- The DATA of a tree send goes down the tree, once, after every CTS has arrived (R486). -/
def pushTree (e n : Nat) (s : State) : State :=
  match slotAt s e n with
  | none => s
  | some m =>
    let wait := m.subs.filter onTree
    if m.kind != .sendTree || wait.isEmpty || wait.any (fun u => u.cts.isNone) then s
    else
      let dead := (m.subs.filter (fun u => !onTree u)).map (fun u => u.dst)
      let a := maxN (wait.map (fun u => u.sentTo))
      let b := dataTo m a m.len
      let pkts := dataPkts (ctlPkt s e .data 0 m.tag m.group 0 m.job m.len 0) m a b
      let s := emitAll e (pkts.flatMap (fun p => treeCopies s e p (pruneTree dead 4 m.tree))) s
      putSlot e n { m with st := .data, subs := m.subs.map (fun u =>
        if !onTree u then u
        else if b = m.len then { u with st := .data, sentData := true, sentTo := b } else { u with sentTo := b }) } s

/-- The later headers of a stream that are due go out in sequence order, up to one that waits for its retry (R269). -/
def flushDue (e : Nat) (m : MSlot) (dst : W32) : Nat → State → State
  | 0, s => s
  | f + 1, s =>
    let open_ := (allSubs s e).filter (fun q =>
      q.2.2.2.dst == dst && sameStream q.2.2.1 m && q.2.2.2.st != .complete && (q.2.2.2.retryAt.isSome || q.2.2.2.due))
    match sortBy (fun a b => (a.2.2.2.seq - b.2.2.2.seq).slt 0) open_ with
    | [] => s
    | (n, i, m', u) :: _ =>
      if u.due then
        flushDue e m dst f (emitAll e (headerPkts s e m' u) (modSub e n i (fun u => { u with due := false }) s))
      else s

/-- The destination of a send that a packet of the receiver's belongs to. -/
def subOfPkt (s : State) (e : Nat) (p : Packet) : Option (Nat × Nat × MSlot × SubSend) :=
  (allSubs s e).find? (fun q =>
    q.2.2.1.job == p.job && q.2.2.1.group == p.group && q.2.2.2.dst == p.src && q.2.2.2.seq == p.seq
      && q.2.2.2.st != .complete)

/-- Whether a slot's context may send DATA now: a parked job's waits for its restore (R457). -/
def ctxActive (e n : Nat) : Bool := decide (1024 ≤ e) || decide (n < 256)

/-- The DATA of a message that has not left its unit yet is not sent any more to a destination (R274). -/
def stopData (e : Nat) (m : MSlot) (u : SubSend) (s : State) : State :=
  modMsg e (fun x => { x with outq := x.outq.filterMap (fun q =>
    let p := q.2
    if p.kind != .data || p.group != m.group || p.job != m.job then some q
    else if p.tree.isEmpty then (if p.dst = u.dst ∧ p.seq = u.seq then none else some q)
    else
      let own := (treeLeaves p.tree).contains u.dst && p.tree.any (fun x => treeTarget x.1 == u.dst && x.2.extractLsb' 0 32 == u.seq)
      if !own then some q
      else
        let es := pruneTree [u.dst] 4 p.tree
        if es.isEmpty then none else some (q.1, { p with tree := es })) })  s

/-- A CTS, ACK, STUB, NACK, ABORT or REFUSE reaches the sender (R274). An SSEND completes once both its CTS and its ACK are
there (R265). -/
def senderGets (e : Nat) (p : Packet) (s : State) : State :=
  match subOfPkt s e p with
  | none => s
  | some (n, i, m, u) =>
    match p.kind with
    | .cts =>
      let s := modSub e n i (fun u => { u with cts := some p.len }) s
      if !ctxActive e n then s
      else if m.kind = .sendTree ∧ !u.stub then pushTree e n s
      else sendData e n i s
    | .ack =>
      if m.kind = .ssend ∧ u.cts.isNone then modSub e n i (fun u => { u with acked := some p.offset }) s
      else pushTree e n (endSub e n i (if p.offset < m.len then 1 else 0) p.offset s)
    | .stub => modSub e n i (fun u => { u with stub := true, eager := false, sentData := false }) s
    | .nack =>
      modSub e n i (fun u =>
        let w := if u.retryWait = 0 then 1500 else Nat.min (2 * u.retryWait) 96000
        { u with retryWait := w, retryAt := some (s.cycle + w) }) s
    | .abort => flushDue e m u.dst 256 (pushTree e n (endSub e n i 3 0 (stopData e m u s)))
    | .refuse => flushDue e m u.dst 256 (pushTree e n (endSub e n i 4 0 (stopData e m u s)))
    | _ => s

/-! ## The receiver's side (R258 to R260, R263 to R270, R273, R277, R278) -/

/-- Whether a header fits a receive (R258); a message of one job meets receives of that job alone. -/
def fits (m : MSlot) (p : Packet) : Bool :=
  m.job == p.job && m.group == p.group && (m.anySrc || m.peer == p.src) && (m.anyTag || m.tag == p.tag)

/-- The posted receives of a unit in posting order (R257). -/
def postedList (s : State) (e : Nat) : List (Nat × MSlot) :=
  sortBy (fun a b => decide (a.2.stamp < b.2.stamp))
    ((slotList s e).filter (fun p => p.2.st == .posted && (decide (1024 ≤ e) || decide (p.1 < 256))))

/-- Whether replay mode withholds a receive (R281). -/
def withheld (s : State) (e : Nat) (m : MSlot) : Bool :=
  decide (e < 1024) && ringMode (tileOf s e) == 2 && (m.anySrc || m.anyTag)

/-- The posted receive that a header matches (R258). -/
def matchOf (s : State) (e : Nat) (p : Packet) : Option (Nat × MSlot) :=
  (postedList s e).find? (fun q => fits q.2 p && !withheld s e q.2)

/-- The receiver's state of a packet's stream. -/
def recvStream (s : State) (e : Nat) (src : W32) (group : BitVec 12) (job : BitVec 16) : RecvStream :=
  ((msgOf s e).recvs.find? (fun x => x.peer == src && x.group == group && x.job == job)).getD
    ⟨src, group, job, 0, [], false, []⟩

/-- Store the receiver's state of a stream. -/
def putRecvStream (e : Nat) (x : RecvStream) (s : State) : State :=
  modMsg e (fun ms =>
    { ms with recvs := ms.recvs.filter (fun y => !(y.peer == x.peer && y.group == x.group && y.job == x.job)) ++ [x] }) s

/-- A packet back to the sender of a message (R252). -/
def answer (e : Nat) (src : W32) (tag : BitVec 24) (group : BitVec 12) (seq : W32) (job : BitVec 16) (kind : PktKind)
    (len offset : Nat) (s : State) : State := emit e (ctlPkt s e kind src tag group seq job len offset) s

/-- A packet back to the sender of a header. -/
def answerHdr (e : Nat) (p : Packet) (kind : PktKind) (len offset : Nat) (s : State) : State :=
  answer e p.src p.tag p.group p.seq p.job kind len offset s

/-- A packet back to the sender of a matched message. -/
def answerSlot (e : Nat) (m : MSlot) (kind : PktKind) (len offset : Nat) (s : State) : State :=
  answer e m.src m.recTag m.group m.seq m.job kind len offset s

/-- The bytes of a message that a receive takes (R264, R270, R278). -/
def wanted (m : MSlot) : Nat := if m.kind = .recvPx8 then m.msgLen else Nat.min m.msgLen m.len

/-- The element type of RECV.ADD (R310). -/
def addTyOf (d3 : W64) : AddTy :=
  match fld d3 0 2 with
  | 0 => .f32
  | 1 => .bf16
  | _ => .s32

/-- Add the elements of a byte string into memory (R66). -/
def addBytes (ty : AddTy) (m : Mem) (a : Nat) (bs : List Byte) : Mem :=
  (List.range (bs.length / ty.bytes)).foldl (fun m i =>
    let old := Mem.load m (a + i * ty.bytes) ty.bytes
    Mem.store m (a + i * ty.bytes) ty.bytes (ty.add old (leAt bs (i * ty.bytes) ty.bytes)).1) m

/-- The writes of some bytes at an address, granule by granule (R206). -/
def piecesOf (now : Nat) (add : Bool) (a : Nat) (bs : List Byte) : List Piece :=
  (pieces a bs.length).map (fun p => ⟨p.1, now, (bs.drop (p.1 - a)).take p.2, none, add⟩)

/-- Bytes of a matched message arrive at an offset (R264, R270, R277, R278): a tile writes them as its banks grant it (R204), a
consumer outside SRAM keeps them. -/
def putBytes (e n off : Nat) (bs : List Byte) (s : State) : State :=
  match slotAt s e n with
  | none => s
  | some m =>
    let bs := bs.take (wanted m - off)
    let m' := { m with got := m.got ++ [(off, bs.length)] }
    putSlot e n (if 1024 ≤ e ∨ m.kind = .recvPx8 then { m' with stash := Mem.writeN m.stash off bs }
      else { m' with todo := m.todo ++ piecesOf s.cycle (m.kind == .recvAdd) (m.buf + off) bs }) s

/-- The output of a PX8 receive (R278): its writes, whether all blocks decoded, the output bytes. -/
def decodePx8 (m : MSlot) : List (Nat × List Byte) × Bool × Nat :=
  let bits := px8StreamBits (Mem.readN m.stash 0 m.msgLen)
  let (bl, ok) := px8DecodeBlocks (fld m.d3 32 16) bits
  let bf := bit m.d3 48
  (bl.zipIdx.flatMap (fun p =>
    if bf then
      [(m.buf + 64 * p.2, p.1.elems.flatMap (fun x => leBytes 2 (px8Bf16Elem .rne false false p.1.scale x).bits))]
    else
      [(m.buf + 32 * p.2, p.1.elems.map (BitVec.ofNat 8)), (fld m.d3 0 21 + 2 * p.2, leBytes 2 p.1.scale)]),
   ok, (if bf then 64 else 32) * bl.length)

/-- Free the pool units of a record (R267). -/
def freeUnits (e : Nat) (job : BitVec 16) (us : List Nat) (s : State) : State :=
  let f (c : EngineCtx) : EngineCtx := { c with pool := c.pool.filter (fun u => !us.contains u) }
  if 1024 ≤ e then modUnitCtx e f s
  else modTile s e (fun t => if job = 0xFFFF then { t with eng := f t.eng } else withCtx job f t)

/-- A receive leaves its stream's list of matched messages (R260). -/
def unmatch (e n : Nat) (m : MSlot) (s : State) : State :=
  let x := recvStream s e m.src m.group m.job
  putRecvStream e { x with matched := x.matched.filter (fun q => q.2 != n) } s

/-- The pool units and the header entry that a receive holds are free (R267). -/
def leavePool (e n : Nat) (s : State) : State :=
  match slotAt s e n with
  | none => s
  | some m => freeUnits e m.job (m.units.getD []) (putSlot e n { m with units := none } s)

/-- A receive ends with a status and a delivered length (R273). -/
def endRecv (e n : Nat) (status : BitVec 4) (dlv : Nat) (s : State) : State :=
  match slotAt s e n with
  | none => s
  | some m => endReq e n { m with status := status, dlvLen := dlv, units := none } (unmatch e n m (leavePool e n s))

/-- A receive in ORDERED completes once it is the first of its stream (R260, R270, R278). -/
def tryOrdered (e n : Nat) (s : State) : Option State :=
  match slotAt s e n with
  | none => none
  | some m =>
    if m.st != .ordered then none
    else match (recvStream s e m.src m.group m.job).matched with
      | [] => none
      | q :: _ =>
        if q.2 ≠ n then none
        else if m.kind = .recvPx8 then
          let (_, ok, out) := decodePx8 m
          some (endRecv e n (if ok then 0 else 15) out s)
        else some (endRecv e n (if m.len < m.msgLen then 1 else 0) (wanted m) s)

/-- The last byte of a matched message is written: ACK, then ORDERED (R264, R273); what it held of the pool is free (R267). -/
def lastByte (e n : Nat) (s : State) : State :=
  match slotAt s e n with
  | none => s
  | some m =>
    let s := if m.ackEarly then s else answerSlot e m .ack m.msgLen (wanted m) s
    let s := leavePool e n (putSlot e n { m with st := .ordered } s)
    (tryOrdered e n s).getD s

/-- The bytes of some ranges. -/
def gotBytes (g : List (Nat × Nat)) : Nat := sumN (g.map Prod.snd)

/-- A receive whose data has all come, and has all been written, has its last byte (R264, R273). -/
def finishRecv (e n : Nat) (s : State) : State :=
  match slotAt s e n with
  | none => s
  | some m => if m.st = .data ∧ !m.isSend ∧ m.todo = [] ∧ wanted m ≤ gotBytes m.got then lastByte e n s else s

/-- All data of a receive has come: a PX8 stream is decoded, and its blocks are to be written (R278). -/
def allCame (e n : Nat) (s : State) : State :=
  match slotAt s e n with
  | none => s
  | some m =>
    if wanted m ≤ gotBytes m.got then
      finishRecv e n (if m.kind = .recvPx8 then
        putSlot e n { m with todo := m.todo ++ (decodePx8 m).1.flatMap (fun w => piecesOf s.cycle false w.1 w.2) } s
      else s)
    else s

/-- The match-log entry of a match, still to be written (R280). -/
def logMatch (now n : Nat) (m : MSlot) (p : Packet) (t : Tile) : Tile :=
  if ringMode t ≠ 1 then t
  else
    let i := fld t.ctrl.matchlog 48 16
    let size := 2 ^ fld t.ctrl.matchlog 40 5
    let w := p.group.toNat * 2 ^ 96 + p.tag.toNat * 2 ^ 72 + ofBool (m.anySrc || m.anyTag) * 2 ^ 71 + n % 128 * 2 ^ 64
      + p.seq.toNat * 2 ^ 32 + p.src.toNat
    let j := (i + 1) % size
    let ml := putFld t.ctrl.matchlog 48 16 j
    { t with msg := { t.msg with logs := t.msg.logs ++ [⟨ringBase t + i % size * 16, now, leBytes 16 w, none, false⟩] },
             ctrl := { t.ctrl with matchlog := if j = 0 then putBit ml 2 true else ml } }

/-- The payload that a record keeps in the pool (R267). -/
def poolBytes (s : State) (e : Nat) (h : HdrRec) : List Byte :=
  if 1024 ≤ e then h.payload
  else
    let t := tileOf s e
    (h.units.flatMap (fun u => Mem.readN t.sram (poolBase t + 64 * u) 64)).take h.pkt.len

/-- The copy of a pooled message into a receive's buffer, granule by granule (R206, R267): first what is still to be written to the
pool. -/
def poolPieces (t : Tile) (now : Nat) (m : MSlot) (h : HdrRec) : List Piece :=
  h.todo ++ (piecesOf now (m.kind == .recvAdd) m.buf (List.replicate (wanted m) 0)).map (fun p =>
    let o := p.addr - m.buf
    { p with src := some (poolBase t + 64 * h.units.getD (o / 64) 0 + o % 64) })

/-- A receive and a message are matched (R258, R263, R264, R273, R275, R277): `rec_` is the record it was stored in. A message
from the pool holds its units and its header entry until it is copied (R267). -/
def doMatch (e n : Nat) (p : Packet) (rec_ : Option HdrRec) (s : State) : State :=
  match slotAt s e n with
  | none => s
  | some m =>
    let stub := (rec_.map (fun h => h.stub)).getD false
    let pooled := p.kind == .eager && rec_.isSome && !stub
    let s := if e < 1024 then modTile s e (fun t => logMatch s.cycle n m p (closeCkpt t)) else s
    let stored := (rec_.map (fun h => h.todo.isEmpty)).getD true
    let m := { m with st := .data, src := p.src, seq := p.seq, mkind := if stub then .stub else p.kind, recPeer := p.src,
                      recTag := p.tag, msgLen := p.len, dlvLen := 0, got := [], stash := [], ackEarly := pooled && stored,
                      todo := [], units := if pooled && e < 1024 then rec_.map (fun h => h.units) else none }
    let s := putSlot e n m s
    let x := recvStream s e p.src p.group p.job
    let s := putRecvStream e { x with matched := insertBy (fun a b => (a.1 - b.1).slt 0) (p.seq, n) x.matched } s
    let bytes := match rec_ with
      | some h => poolBytes s e h
      | none => p.payload
    let s := match rec_ with
      | some h => if m.units.isNone then freeUnits e p.job h.units s else s
      | none => s
    if m.kind = .recvAdd ∧ wanted m % addSize m.d3 ≠ 0 then
      let s := if !pooled then answerHdr e p .refuse 0 0 s
        else if stored then s else answerHdr e p .ack p.len p.len s
      endRecv e n 15 0 s
    else if p.kind = .eager ∧ !stub then
      match rec_ with
      | some h =>
        if 1024 ≤ e ∨ m.kind = .recvPx8 then allCame e n (putBytes e n 0 bytes s)
        else finishRecv e n (putSlot e n { m with got := [(0, wanted m)], todo := poolPieces (tileOf s e) s.cycle m h } s)
      | none => allCame e n (putBytes e n 0 bytes s)
    else
      let s := answerHdr e p .cts (wanted m) 0 s
      if wanted m = 0 then lastByte e n s else s

/-- The pool units free at a unit, lowest first (R267, R422). -/
def freePool (s : State) (e : Nat) (job : BitVec 16) : List Nat :=
  if 1024 ≤ e then (List.range 8192).filter (fun u => !(unitCtx s e).pool.contains u)
  else
    let t := tileOf s e
    let c := if job = 0xFFFF then t.eng else ctxOf job t
    (List.range (poolSize t / 64)).filter (fun u => !c.pool.contains u)

/-- Take pool units (R267). -/
def fillUnits (e : Nat) (job : BitVec 16) (us : List Nat) (s : State) : State :=
  let f (c : EngineCtx) : EngineCtx := { c with pool := c.pool ++ us }
  if 1024 ≤ e then modUnitCtx e f s
  else modTile s e (fun t => if job = 0xFFFF then { t with eng := f t.eng } else withCtx job f t)

/-- The writes of a payload to pool units (R206, R267). -/
def unitPieces (t : Tile) (now : Nat) (us : List Nat) (bs : List Byte) : List Piece :=
  (us.zip (chunks 64 bs)).flatMap (fun q => piecesOf now false (poolBase t + 64 * q.1) q.2)

/-- The entries of the header store in use: the records, and those of messages that are still copied from the pool (R267). -/
def hdrsUsed (s : State) (e : Nat) : Nat :=
  (msgOf s e).hdrs.length + ((slotList s e).filter (fun q => q.2.units.isSome)).length

/-- An unmatched header is stored (R267, R268): none where the header store is full. An eager message is acknowledged once its data
is in the pool (R263). -/
def storeHdr (e : Nat) (p : Packet) (s : State) : Option State :=
  if 1024 ≤ hdrsUsed s e then none
  else
    let put (h : HdrRec) (s : State) : State := modMsg e (fun ms => { ms with hdrs := ms.hdrs ++ [h] }) s
    let bare := { p with payload := [] }
    if p.kind != .eager then some (put ⟨bare, false, [], [], []⟩ s)
    else
      let need := ceilDiv p.len 64
      let us := (freePool s e p.job).take need
      if us.length < need then some (answerHdr e p .stub 0 0 (put ⟨bare, true, [], [], []⟩ s))
      else if 1024 ≤ e then
        some (answerHdr e p .ack p.len p.len (put ⟨bare, false, us, p.payload, []⟩ (fillUnits e p.job us s)))
      else
        let todo := unitPieces (tileOf s e) s.cycle us p.payload
        let s := put ⟨bare, false, us, [], todo⟩ (fillUnits e p.job us s)
        some (if todo.isEmpty then answerHdr e p .ack p.len p.len s else s)

/-- Whether a unit takes a message by itself, without a posted receive: a request at a server tile (R422), and what the
lightship accepts (R446). -/
def takesSelf (e : Nat) (p : Packet) : Bool :=
  (decide (0x400 ≤ e ∧ e < 0x420) && p.group == 0xFFF && p.tag == 0) || e == lsRank

/-- A request takes its place in the queue of its server tile, or of the lightship, at its match (R429, R446). -/
def enterRequest (e n : Nat) (p : Packet) (s : State) : State :=
  if e < 0x420 then
    let v := serverOf s (e - 0x400)
    setServer s (e - 0x400) { v with queued := v.queued ++ [⟨p.src, p.job, [], none, 0, some n, false⟩] }
  else if p.group = 0xFFE then
    { s with ls := { s.ls with requests := s.ls.requests ++ [⟨p.src, p.tag, [], some n⟩] } }
  else s

/-- Offer a header to matching (R258, R313): false where it is refused with NACK. -/
def offer (e : Nat) (p : Packet) (s : State) : State × Bool :=
  if takesSelf e p then
    let n := newSlot s e
    let m := { unitSlot .recv p.src p.tag p.group p.job p.len [] with st := .posted, anySrc := true }
    (doMatch e n p none (putSlot e n m (enterRequest e n p s)), true)
  else
    let hit := matchOf s e p
    let station := match hit with
      | some (_, m) => m.station
      | none => false
    if decide (e < 1024) && (tileOf s e).msg.quiesced && !station then (answerHdr e p .nack 0 0 s, false)
    else match hit with
      | some (n, _) => (doMatch e n p none s, true)
      | none =>
        match storeHdr e p s with
        | some s => (s, true)
        | none => (answerHdr e p .nack 0 0 s, false)

/-- A header of a stream stands refused: so are the later ones that wait for it (R269). -/
def refuseStream (e : Nat) (x : RecvStream) (s : State) : State :=
  x.held.foldl (fun s h => answerHdr e h .nack 0 0 s) (putRecvStream e { x with refused := true, held := [] } s)

/-- Offer a header whose turn it is, then the headers held behind it (R258, R259, R269). -/
def offerFrom (e : Nat) : Nat → Packet → State → State
  | 0, _, s => s
  | f + 1, p, s =>
    let (s, ok) := offer e p s
    let x := recvStream s e p.src p.group p.job
    if !ok then refuseStream e x s
    else
      let x := { x with next := p.seq + 1, refused := false }
      match x.held.find? (fun h => h.seq == p.seq + 1) with
      | some h => offerFrom e f h (putRecvStream e { x with held := x.held.filter (fun y => y.seq != h.seq) } s)
      | none => putRecvStream e x s

/-- How a unit meets a message of a job (R250, R276, R446, R457). -/
inductive Admit where | take | nack | refuse
  deriving DecidableEq, Repr

/-- Whether a tile has left a job (R276). -/
def hasLeft (s : State) (job : BitVec 16) (e : Nat) : Bool :=
  match jobById s job with
  | some j => j.left.contains e || j.st == .ended
  | none => false

def headerAdmit (s : State) (e : Nat) (p : Packet) : Admit :=
  if e < 1024 then
    let t := tileOf s e
    if p.job = 0xFFFF then .take
    else if (t.parked.map Prod.fst) == some p.job then .nack
    else if p.job = jobOf t ∧ !hasLeft s p.job e then .take
    else .refuse
  else if e < 0x420 then
    if p.group = 0xFFF ∧ (p.job = 0xFFFF ∨ ((jobById s p.job).map (fun j => j.st != .ended)).getD false) then .take
    else .refuse
  else if (p.job = 0xFFFF ∧ (nodeOf p.src).toNat < 0x2000) ∨ (p.group = 0xFFE ∧ s.ls.hosts.contains p.src) then .take
  else .refuse

/-- A whole EAGER header with its data, or an RTS, reaches a receiver (R250, R258, R259, R269). -/
def headerArrives (e : Nat) (p : Packet) (s : State) : State :=
  match headerAdmit s e p with
  | .refuse => answerHdr e p .refuse 0 0 s
  | .nack =>
    let x := recvStream s e p.src p.group p.job
    answerHdr e p .nack 0 0 (if x.next = p.seq then refuseStream e x s else s)
  | .take =>
    let x := recvStream s e p.src p.group p.job
    if x.next = p.seq then offerFrom e (x.held.length + 1) p s
    else if (p.seq - x.next).slt 0 then s
    else if x.refused || (decide (e < 1024) && (tileOf s e).msg.quiesced && p.job != 0xFFFF) then answerHdr e p .nack 0 0 s
    else putRecvStream e { x with held := x.held ++ [p] } s

/-- Take the packet at a place of the inbox if it is due and has a kind. -/
def takeInbox (e n : Nat) (kind : PktKind) (s : State) : Option (Packet × State) :=
  match (msgOf s e).inbox[n]? with
  | some (due, p) =>
    if due ≤ s.cycle ∧ p.kind = kind then some (p, modMsg e (fun ms => { ms with inbox := ms.inbox.eraseIdx n }) s) else none
  | none => none

/-- An EAGER packet arrives: a message of several packets is put together by offset first (R371, R375). -/
def eagerArrives (e : Nat) (p : Packet) (s : State) : State :=
  if p.payload.length = p.len then headerArrives e p s
  else
    let same (x : Reasm) : Bool := x.pkt.src == p.src && x.pkt.group == p.group && x.pkt.seq == p.seq && x.pkt.job == p.job
    let x := ((msgOf s e).reasm.find? same).getD ⟨{ p with payload := [] }, [], []⟩
    let x := { x with got := x.got ++ [(p.offset, p.payload.length)], bytes := Mem.writeN x.bytes p.offset p.payload }
    let s := modMsg e (fun ms => { ms with reasm := ms.reasm.filter (fun y => !same y) }) s
    if gotBytes x.got < p.len then modMsg e (fun ms => { ms with reasm := ms.reasm ++ [x] }) s
    else headerArrives e { p with offset := 0, payload := Mem.readN x.bytes 0 p.len } s

/-- A DATA packet arrives: written into the matched buffer, or discarded (R264, R271). -/
def dataArrives (e : Nat) (p : Packet) (s : State) : State :=
  match (slotList s e).find? (fun q =>
    !q.2.isSend && q.2.st == .data && q.2.src == p.src && q.2.seq == p.seq && q.2.group == p.group && q.2.job == p.job) with
  | none => s
  | some (n, _) => allCame e n (putBytes e n p.offset p.payload s)

/-- An abandoned receive: ABORT to the sender, CANCELLED (R271, R272). -/
def abortRecv (e n : Nat) (s : State) : State :=
  match slotAt s e n with
  | none => s
  | some m => endRecv e n 2 0 (answerSlot e m .abort 0 0 s)

/-- A send of a server tile or of the lightship, to start at once (R424, R446); its eager limit is 2 KiB (R422). -/
def unitSend (e : Nat) (dst : W32) (tag : BitVec 24) (group : BitVec 12) (job : BitVec 16) (bs : List Byte) (s : State) :
    Nat × State :=
  let n := newSlot s e
  (n, startSend e n (unitSlot .send dst tag group job bs.length bs) 2048 s)

/-! ## Messages of the lightship (R446, R448, R484) -/

/-- A message of the lightship. -/
def lsSend (dst : W32) (tag : BitVec 24) (job : BitVec 16) (bs : List Byte) (s : State) : State :=
  (unitSend lsRank dst tag 0xFFE job bs s).2

/-- A station message to the lightship of another package of the pod (R484; the group and its bytes by log entry 113). -/
def podSend (node : BitVec 16) (bs : List Byte) (s : State) : State :=
  (unitSend lsRank (node ++ BitVec.ofNat 16 lsRank) 0 podGroup 0xFFFF bs s).2

end Sys2Proof.Machine
end

