-- ==== Sys2Proof/Machine/Beacon.lean ====
section
/-! DEFINITION. The beacon network: announcements, votes, scans, barriers and resets (R382 to R398). -/

namespace Sys2Proof.Machine

/-- The length of a beacon window of a domain (R385). -/
def winLen (x : Domain) : Nat := if domLevel x.shape = 4 then 128 else 32

/-- The delay of a release or of a time-out (R394, R396). -/
def barDelay (x : Domain) : Nat := if domLevel x.shape = 4 then 160 else 40

/-- The beacon result word (R390). -/
def beaconWord (status : Nat) (epoch : BitVec 16) (value : Nat) : W64 :=
  BitVec.ofNat 64 (status * 2 ^ 60 + epoch.toNat * 2 ^ 32 + value % 2 ^ 32)

/-- The window in which a tile contributes now (R385). -/
def contribWindow (s : State) (x : Domain) (r : Nat) : Nat :=
  let w := s.cycle / winLen x
  match x.contrib.find? (fun p => p.1.val == r) with
  | some (_, k) => if w ≤ k then k + 1 else w
  | none => w

/-- Note a tile's contribution in a window. -/
def noteContrib (r : TileId) (w : Nat) (x : Domain) : Domain :=
  { x with contrib := (r, w) :: x.contrib.filter (fun p => p.1 != r) }

/-- The part of a tile of a class. -/
def partOf (x : Domain) (r cls : Nat) : Option BeaconPart := x.parts.find? (fun p => p.tile.val == r && p.cls == cls)

/-- Store a tile's part. -/
def putPart (p : BeaconPart) (x : Domain) : Domain :=
  { x with parts := x.parts.filter (fun q => !(q.tile == p.tile && q.cls == p.cls)) ++ [p] }

/-- Remove a tile's part. -/
def dropPart (r cls : Nat) (x : Domain) : Domain :=
  { x with parts := x.parts.filter (fun q => !(q.tile.val == r && q.cls == cls)) }

/-- Toggle the phase bit of a domain register (R382). -/
def togglePhase (r d : Nat) (s : State) : State :=
  modTile s r (fun t =>
    let w := vget t.ctrl.dom d 0
    { t with ctrl := { t.ctrl with dom := vset t.ctrl.dom d (putBit w 62 (!bit w 62)) } })

/-- The keeper takes the result of its part, if it is there (R389, R390). -/
def takePart (i : Instr) (d : BitVec 5) (reg : Nat) (p : BeaconPart) (s : State) : State :=
  let r := s.focus.val
  match p.result with
  | some w =>
    if s.cycle < p.readyAt then waitHere s i
    else
      let s := setDom s r reg (dropPart r p.cls (domOf s r reg))
      retireReg (if p.phase then togglePhase r reg s else s) d w 1
  | none => waitHere s i

/-- The part with which a tile stands in a beacon instruction with these operands: while it waits, or after a trap
abandoned the wait (R389). -/
def standingPart (x : Domain) (r : Nat) (q : BeaconPart) : Option BeaconPart :=
  match partOf x r q.cls with
  | some p => if p.kind = q.kind ∧ p.epoch = q.epoch ∧ p.value = q.value ∧ p.buf = q.buf then some p else none
  | none => none

/-- A beacon instruction at a register whose level is 0 traps (R390). -/
def onDomain (i : Instr) (reg : Nat) (k : State → State) (s : State) : State :=
  if domLevel (domReg (cur s) reg) = 0 then trapIllegal (wordOf i) s else k s

/-! ## ANN (R391) -/

/-- ANN, and ANN.L where `listen` is set (R391). Its issue closes the checkpoint (R222). -/
def runAnn (i : Instr) (listen : Bool) (d : BitVec 5) (word : W32) (buf : W64) (reg : Nat) (s : State) : State :=
  let r := s.focus.val
  let x := domOf s r reg
  let p : BeaconPart :=
    { tile := s.focus, cls := 1, kind := ofBool listen, epoch := 0, value := word, buf := buf,
      window := if listen then s.cycle / winLen x else contribWindow s x r, result := none, readyAt := 0, phase := false }
  match standingPart x r p with
  | some q => takePart i d reg q (modCur s closeCkpt)
  | none =>
    if buf.toNat % 8 ≠ 0 then trapMisaligned buf s
    else if !inBounds (cur s) (atStation (cur s)) buf.toNat (8 * (domMembers s r reg).length) then trapBound buf s
    else
      let x := if listen then x
        else noteContrib s.focus p.window { x with anns := x.anns ++ [⟨p.window, s.focus, word⟩] }
      waitHere (setDom (modCur s closeCkpt) r reg (putPart p x)) i

/-! ## Collectives (R388, R392, R394) -/

/-- VOTE and BAR (R388, R392, R394): arrival at the instance, or a completion at once; a TIMEOUT shows the arrival record of the
break (R397). -/
def runColl (i : Instr) (d : BitVec 5) (kind : Nat) (epoch : BitVec 16) (value : W32) (reg : Nat) (s : State) : State :=
  let r := s.focus.val
  let s := modCur s closeCkpt
  let x := domOf s r reg
  let w := contribWindow s x r
  let p : BeaconPart :=
    { tile := s.focus, cls := 0, kind := kind, epoch := epoch, value := value, buf := 0, window := w, result := none,
      readyAt := 0, phase := false }
  match standingPart x r p with
  | some q => takePart i d reg q s
  | none =>
    if epoch ≠ x.epoch then retireReg s d (beaconWord 8 x.epoch 0) 1
    else if x.broken then retireReg (modCur s (putMasks x.record)) d (beaconWord 5 x.epoch 0) 1
    else if (x.kind ≠ 0 ∧ x.kind ≠ kind) ∨ x.arrivals.any (fun a => a.tile.val == r) then
      retireReg s d (beaconWord 15 x.epoch 0) 1
    else
      let a : Arrival :=
        { tile := s.focus, reg := reg, clk := Nat.max s.cycle (w * winLen x), limit := fld (cur s).ctrl.barto 0 48,
          window := w, values := [value], dst := 0, tout := 0, station := false }
      waitHere (setDom s r reg (putPart p (noteContrib s.focus w { x with kind := kind, arrivals := x.arrivals ++ [a] }))) i

/-- The code of a vote operation (R390). -/
def voteKind (op : Nat) : Nat := 3 + op

/-- Any beacon instruction of class KR at the issuing keeper; again at each clk while it waits (R243). -/
def runBeacon (i : Instr) (s : State) : State :=
  let ann (l : Bool) (d a b : BitVec 5) (x : BitVec 2) : State :=
    onDomain i x.toNat (fun s => runAnn i l d ((kreg s a).extractLsb' 0 32) (kreg s b) x.toNat s) s
  let vote (op : Nat) (d a b : BitVec 5) (x : BitVec 2) : State :=
    onDomain i x.toNat (fun s =>
      runColl i d (voteKind op) ((kreg s b).extractLsb' 0 16) ((kreg s a).extractLsb' 0 32) x.toNat s) s
  match i with
  | .ann d a b x => ann false d a b x
  | .annL d b x => ann true d 0 b x
  | .voteAnd d a b x => vote 0 d a b x
  | .voteOr d a b x => vote 1 d a b x
  | .voteMax d a b x => vote 2 d a b x
  | .voteMin d a b x => vote 3 d a b x
  | .voteMaxs d a b x => vote 4 d a b x
  | .voteMins d a b x => vote 5 d a b x
  | .bar d a x => onDomain i x.toNat (fun s => runColl i d 1 ((kreg s a).extractLsb' 0 16) 0 x.toNat s) s
  | .barx d a x =>
    onDomain i x.toNat (fun s =>
      let s := modCur s closeCkpt
      let r := s.focus.val
      let g := x.toNat
      let y := domOf s r g
      let e := (kreg s a).extractLsb' 0 16
      match (cur s).keeper.waiting, partOf y r 2 with
      | some _, some p => takePart i d g p s
      | _, _ =>
        let w := contribWindow s y r
        let p : BeaconPart :=
          { tile := s.focus, cls := 2, kind := 2, epoch := e, value := 0, buf := 0, window := w, result := none,
            readyAt := 0, phase := false }
        waitHere (setDom s r g (putPart p (noteContrib s.focus w { y with barx := y.barx ++ [⟨w, s.focus, g, e⟩] }))) i) s
  | _ => s

def execAnn (d a b : BitVec 5) (x : BitVec 2) (s : State) : Out := .next (runBeacon (.ann d a b x) s)
def execAnnL (d b : BitVec 5) (x : BitVec 2) (s : State) : Out := .next (runBeacon (.annL d b x) s)
def execVoteAnd (d a b : BitVec 5) (x : BitVec 2) (s : State) : Out := .next (runBeacon (.voteAnd d a b x) s)
def execVoteOr (d a b : BitVec 5) (x : BitVec 2) (s : State) : Out := .next (runBeacon (.voteOr d a b x) s)
def execVoteMax (d a b : BitVec 5) (x : BitVec 2) (s : State) : Out := .next (runBeacon (.voteMax d a b x) s)
def execVoteMin (d a b : BitVec 5) (x : BitVec 2) (s : State) : Out := .next (runBeacon (.voteMin d a b x) s)
def execVoteMaxs (d a b : BitVec 5) (x : BitVec 2) (s : State) : Out := .next (runBeacon (.voteMaxs d a b x) s)
def execVoteMins (d a b : BitVec 5) (x : BitVec 2) (s : State) : Out := .next (runBeacon (.voteMins d a b x) s)
def execBar (d a : BitVec 5) (x : BitVec 2) (s : State) : Out := .next (runBeacon (.bar d a x) s)
def execBarx (d a : BitVec 5) (x : BitVec 2) (s : State) : Out := .next (runBeacon (.barx d a x) s)

/-! ## SCAN (R393) -/

/-- The fields of a SCAN descriptor (R393). -/
def scanSrc (c : KCmd) : Nat := fld c.d0 0 21
def scanDst (c : KCmd) : Nat := fld c.d0 32 21
def scanN (c : KCmd) : Nat := fld c.d1 0 5

/-- Whether the result place of a SCAN passes its check (R393). -/
def scanDstOk (t : Tile) (c : KCmd) : Bool := scanDst c % 16 == 0 && inBounds t c.station (scanDst c) 136

/-- Whether a SCAN passes its checks (R282, R203, R393). -/
def scanOk (t : Tile) (c : KCmd) : Bool :=
  !reservedSet c && decide (1 ≤ scanN c ∧ scanN c ≤ 16) && scanSrc c % 16 == 0
    && inBounds t c.station (scanSrc c) (4 * scanN c) && scanDstOk t c

/-- Write bytes of a beacon result into a tile, or keep them while it is parked (R457). -/
def beaconWrite (x : Domain) (r : TileId) (a : Nat) (bs : List Byte) (s : State) : Domain × State :=
  if !tileAway s x.job r.val then (x, modTile s r.val (fun t => { t with sram := Mem.writeN t.sram a bs }))
  else ({ x with owed := x.owed ++ [⟨r, a, bs⟩] }, s)

/-- A SCAN ends with its result word alone (R393). -/
def scanEnd (r : Nat) (c : KCmd) (word : W64) (s : State) : State :=
  modTile s r (fun t =>
    subTok c.station c.job c.tout.toNat { t with sram := Mem.store t.sram (scanDst c + 128) 8 word.toNat })

/-- A SCAN whose input tokens are set starts: it reads its counters and arrives (R388, R393). -/
def startScan (r : TileId) (c : KCmd) (s : State) : State :=
  let reg := c.sub.toNat
  let x := domOf s r.val reg
  let epoch : BitVec 16 := c.d1.extractLsb' 32 16
  if epoch ≠ x.epoch then scanEnd r.val c (beaconWord 8 x.epoch 0) s
  else if x.broken then scanEnd r.val c (beaconWord 5 x.epoch 0) (modTile s r.val (putMasks x.record))
  else if (x.kind ≠ 0 ∧ x.kind ≠ 2) ∨ x.arrivals.any (fun a => a.tile == r) then
    scanEnd r.val c (beaconWord 15 x.epoch 0) s
  else
    let t := tileOf s r.val
    let w := contribWindow s x r.val
    let a : Arrival :=
      { tile := r, reg := reg, clk := Nat.max s.cycle (w * winLen x), limit := fld t.ctrl.barto 0 48, window := w,
        values := upTo (scanN c) (fun i => BitVec.ofNat 32 (Mem.load t.sram (scanSrc c + 4 * i) 4)), dst := scanDst c,
        tout := c.tout, station := c.station }
    setDom s r.val reg (noteContrib r w { x with kind := 2, arrivals := x.arrivals ++ [a] })

/-- The first waiting SCAN of a tile that may start (R209, R256, R313, R455). -/
def readyScan (t : Tile) : Option KCmd :=
  t.eng.scanQ.find? (fun c => c.op == 0x3A && inputsSet t c && (c.station || (!t.msg.quiesced && !t.keeper.preempted && !t.parkSeen)))

/-- Start the SCANs of a tile that may start, with fuel for their number. -/
def startScans (r : TileId) : Nat → State → State
  | 0, s => s
  | f + 1, s =>
    match readyScan (tileOf s r.val) with
    | none => s
    | some c =>
      startScans r f (startScan r c (modTile s r.val (fun t =>
        { t with eng := { t.eng with scanQ := t.eng.scanQ.filter (fun y => y.stamp != c.stamp) } })))

/-- A SCAN enters the message engine; one that fails its checks contributes nothing (R393). The checkpoint closes (R222). -/
def enterScan (c : KCmd) (s : State) : State :=
  let s := modCur s closeCkpt
  let r := s.focus.val
  let t := cur s
  if scanOk t c then
    startScans s.focus 1 (modCur s (fun t => { t with eng := { t.eng with scanQ := t.eng.scanQ ++ [c] } }))
  else
    modTile s r (fun t =>
      let t := setEvent 35 (subTok c.station c.job c.tout.toNat t)
      if scanDstOk t c then
        { t with sram := Mem.store t.sram (scanDst c + 128) 8 (beaconWord 15 (domOf s r c.sub.toNat).epoch 0).toNat }
      else t)

/-- The issue of SCAN (R390, R393). -/
def runScan (t : Tok) (k : BitVec 5) (m n : Tok) (x : BitVec 2) (s : State) : State :=
  let i := Instr.scan t k m n x
  onDomain i x.toNat (fun s => orWait i s (issueKC i 0x3A x t k m n (fun _ _ => true) enterScan s)) s

def execScan (t : Tok) (k : BitVec 5) (m n : Tok) (x : BitVec 2) (s : State) : Out := .next (runScan t k m n x s)

/-! ## Windows (R385, R391 to R393, R398) -/

/-- The result of a part is there. -/
def givePart (x : Domain) (r : TileId) (cls : Nat) (w : W64) (now : Nat) (phase : Bool) : Domain :=
  match partOf x r.val cls with
  | some p => putPart { p with result := some w, readyAt := now, phase := phase } x
  | none => x

/-- The announcements of the level 4 domains that are to go out in a window, lowest local rank first, with the place of their
domain. -/
def pkgAnns (s : State) (w : Nat) : List (TileId × Nat) :=
  sortBy (fun a b => decide (a.1.val < b.1.val)) ((s.domains.zipIdx.filter (fun p => domLevel p.1.shape == 4)).flatMap (fun p =>
    (p.1.anns.filter (fun a => a.window == w)).map (fun a => (a.tile, p.2))))

/-- Those for which their die has no room in the window: it places 128 (R385). -/
def lateAnns (s : State) (w : Nat) : List (TileId × Nat) :=
  (List.range 4).flatMap (fun d => ((pkgAnns s w).filter (fun a => a.1.val / 256 == d)).drop 128)

/-- The announcement of a tile moves to the next window (R385). -/
def moveAnn (w : Nat) (r : TileId) (x : Domain) : Domain :=
  { x with anns := x.anns.map (fun a => if a.window = w ∧ a.tile = r then { a with window := w + 1 } else a),
           parts := x.parts.map (fun p =>
             if p.cls = 1 ∧ p.kind = 0 ∧ p.window = w ∧ p.result.isNone ∧ p.tile = r then { p with window := w + 1 } else p) }

/-- Announcements beyond the 128 that a die places in a window move to the next one (R385), for every window that is due, with
fuel for the windows. -/
def spillAnns (due : Nat → Bool) : Nat → State → State
  | 0, s => s
  | f + 1, s =>
    let ws := sortBy (fun a b => decide (a < b)) ((s.domains.flatMap (fun x => x.anns.map (fun a => a.window))).filter due)
    match ws.find? (fun w => !(lateAnns s w).isEmpty) with
    | none => s
    | some w =>
      spillAnns due f ((lateAnns s w).foldl (fun s a => { s with domains := s.domains.modify a.2 (moveAnn w a.1) }) s)

/-- The entry that an announcement writes (R391). -/
def annEntry (a : Announce) : List Byte := leBytes 8 (a.window % 65536 * 2 ^ 48 + a.tile.val * 2 ^ 32 + a.word.toNat)

/-- Deliver the announcements of a window to those who announced or listened in it (R391). -/
def deliverAnns (w : Nat) (x : Domain) (s : State) : Domain × State :=
  let as := sortBy (fun a b => decide (a.tile.val < b.tile.val)) (x.anns.filter (fun a => a.window == w))
  let bytes := as.flatMap annEntry
  let (x, s) := (x.parts.filter (fun p => p.cls == 1 && p.window == w && p.result.isNone)).foldl (fun acc p =>
    let (x, s) := beaconWrite acc.1 p.tile p.buf.toNat bytes acc.2
    (givePart x p.tile 1 (beaconWord 0 0 as.length) (s.cycle + ceilDiv as.length 2) false, s)) (x, s)
  ({ x with anns := x.anns.filter (fun a => a.window != w) }, s)

/-- The combination of a vote (R392). -/
def voteValue (op : Nat) (vs : List W32) : W32 :=
  match vs with
  | [] => 0
  | v :: rest => rest.foldl (fun a b =>
      match op with
      | 0 => a &&& b
      | 1 => a ||| b
      | 2 => if a.ult b then b else a
      | 3 => if b.ult a then b else a
      | 4 => if a.slt b then b else a
      | _ => if b.slt a then b else a) v

/-- The instance is over: the epoch goes on and the arrival record is emptied (R388). -/
def nextInstance (x : Domain) : Domain := { x with epoch := x.epoch + 1, arrivals := [], kind := 0, commit := none }

/-- What one member of a SCAN instance receives (R393). -/
def scanBytes (earlier all : List Arrival) (a : Arrival) : List (Nat × List Byte) :=
  let sumAt (as : List Arrival) (c : Nat) : Nat := sumN (as.map (fun b => (b.values.getD c 0).toNat)) % 2 ^ 32
  (List.range a.values.length).flatMap (fun c =>
    [(a.dst + 4 * c, leBytes 4 (sumAt earlier c)), (a.dst + 64 + 4 * c, leBytes 4 (sumAt all c))])

/-- A SCAN instance completes for its members (R393). -/
def completeScan (x : Domain) (s : State) : Domain × State :=
  let as := sortBy (fun a b => decide (a.tile.val < b.tile.val)) x.arrivals
  as.foldl (fun acc a =>
    let earlier := as.filter (fun b => decide (b.tile.val < a.tile.val))
    let ws := scanBytes earlier as a ++ [(a.dst + 128, leBytes 8 (beaconWord 0 x.epoch 0).toNat)]
    let (y, s) := ws.foldl (fun acc w => beaconWrite acc.1 a.tile w.1 w.2 acc.2) acc
    (y, modTile s a.tile.val (subTok a.station x.job a.tout.toNat))) (x, s)

/-- Whether every member of a domain has arrived by now (R388). -/
def allArrived (s : State) (x : Domain) : Bool :=
  (domTiles s x).all (fun r => x.arrivals.any (fun a => a.tile.val == r && decide (a.clk ≤ s.cycle)))

/-- A VOTE or SCAN whose last contribution fell in a window that is due completes (R392, R393). -/
def deliverColl (due : Nat → Bool) (x : Domain) (s : State) : Domain × State :=
  if x.kind < 2 ∨ x.broken ∨ !allArrived s x ∨ x.arrivals.isEmpty ∨ !due (maxN (x.arrivals.map (fun a => a.window))) then (x, s)
  else if x.kind = 2 then
    let (y, s) := completeScan x s
    (nextInstance y, s)
  else
    let v := voteValue (x.kind - 3) (x.arrivals.flatMap (fun a => a.values))
    let y := x.arrivals.foldl (fun y a => givePart y a.tile 0 (beaconWord 0 x.epoch v.toNat) s.cycle false) x
    (nextInstance y, s)

/-- The masks of the members that have arrived by this clk (R397). -/
def arrivalMask (s : State) (x : Domain) (i : Nat) : W64 :=
  ((domTiles s x).zipIdx).foldl (fun w p =>
    if p.2 / 64 = i ∧ x.arrivals.any (fun a => a.tile.val == p.1 && decide (a.clk ≤ s.cycle)) then putBit w (p.2 % 64) true else w) 0

/-- The waiting members of a broken domain complete TIMEOUT, each with the arrival record of the break, which a parked one is
owed (R396, R397, R457). -/
def completeTimeouts (ready : Nat) (x : Domain) (s : State) : Domain × State :=
  let w := beaconWord 5 x.epoch 0
  let (y, s) := x.arrivals.foldl (fun acc a =>
    let (y, s) := acc
    let (y, s) := if !tileAway s x.job a.tile.val then (y, modTile s a.tile.val (putMasks x.record))
      else ({ y with owedMasks := y.owedMasks.filter (fun o => o.1 != a.tile) ++ [(a.tile, x.record)] }, s)
    if x.kind = 2 then
      let (y, s) := beaconWrite y a.tile (a.dst + 128) (leBytes 8 w.toNat) s
      (y, modTile s a.tile.val (subTok a.station x.job a.tout.toNat))
    else (givePart y a.tile 0 w ready false, s)) (x, s)
  ({ y with arrivals := [], kind := 0, commit := none, toDue := none }, s)

/-- The BARX requests of the windows that are due act (R398). -/
def deliverBarx (due : Nat → Bool) (x : Domain) (s : State) : Domain × State :=
  let qs := sortBy (fun a b => decide (a.window < b.window ∨ (a.window = b.window ∧ a.tile.val < b.tile.val)))
    (x.barx.filter (fun q => due q.window))
  let x := { x with barx := x.barx.filter (fun q => !due q.window) }
  qs.foldl (fun acc q =>
    let (x, s) := acc
    if x.broken then
      let (x, s) := match x.toDue with
        | some n => completeTimeouts n x s
        | none => (x, s)
      let x := { x with broken := false, arrivals := [], kind := 0, commit := none, epoch := q.epoch }
      (givePart x q.tile 2 (beaconWord 0 q.epoch 0) s.cycle false, s)
    else (givePart x q.tile 2 (beaconWord 6 x.epoch 0) s.cycle false, s)) (x, s)

/-- All that a domain delivers at the start of a window (R385). -/
def deliverDomain (x : Domain) (s : State) : Domain × State :=
  let due (w : Nat) : Bool := decide (w + 2 ≤ s.cycle / winLen x)
  let ws := sortBy (fun a b => decide (a < b)) (((x.anns.map (fun a => a.window)) ++
    (x.parts.filter (fun p => p.cls == 1 && p.result.isNone)).map (fun p => p.window)).filter due)
  let (x, s) := ws.foldl (fun acc w => deliverAnns w acc.1 acc.2) (x, s)
  let (x, s) := deliverColl due x s
  deliverBarx due x s

/-- BEACON_WINDOW (R385): the domains of the package level, or those of the die levels, deliver. -/
def runBeaconWindow (pkg : Bool) (s : State) : State :=
  let s := if pkg then spillAnns (fun w => decide (w + 2 ≤ s.cycle / 128)) (s.domains.flatMap (fun x => x.anns)).length s else s
  (List.range s.domains.length).foldl (fun s i =>
    match s.domains[i]? with
    | some x =>
      if (domLevel x.shape == 4) != pkg then s
      else
        let (x, s) := deliverDomain x s
        { s with domains := s.domains.set i x }
    | none => s) s

def execBeaconWindow (pkg : Bool) (s : State) : Out := .next (runBeaconWindow pkg s)

/-! ## Barriers, time-outs (R387, R394, R396) -/

/-- Whether a member's pending field reads zero (R386, R387). -/
def nothingPending (s : State) (x : Domain) (r : Nat) : Bool := vget (ctxOf x.job (tileOf s r)).pending x.reg 0 == 0

/-- BAR_COMMIT (R387, R394). -/
def tryBarCommit (i : Nat) (s : State) : Option State :=
  match s.domains[i]? with
  | some x =>
    if x.kind = 1 ∧ x.commit.isNone ∧ !x.broken ∧ allArrived s x ∧ (!x.bsp ∨ (domTiles s x).all (nothingPending s x)) then
      some { s with domains := s.domains.set i { x with commit := some s.cycle } }
    else none
  | none => none

def execBarCommit (i : Nat) (s : State) : Out := .next (orStay s (tryBarCommit i s))

/-- What the OK release of a BAR does at a member (R382, R455). -/
def releaseAt (x : Domain) (a : Arrival) (s : State) : State :=
  if tileAway s x.job a.tile.val || !x.bsp then s
  else
    togglePhase a.tile.val x.reg (modTile s a.tile.val (fun t => { t with keeper := { t.keeper with preemptBy := none } }))

/-- BAR_RELEASE (R394). -/
def tryBarRelease (i : Nat) (s : State) : Option State :=
  match s.domains[i]? with
  | some x =>
    match x.commit with
    | some n =>
      if s.cycle < n + barDelay x then none
      else
        let y := x.arrivals.foldl (fun y a =>
          givePart y a.tile 0 (beaconWord 0 x.epoch 0) s.cycle (x.bsp && tileAway s x.job a.tile.val)) x
        some (x.arrivals.foldl (fun s a => releaseAt x a s) { s with domains := s.domains.set i (nextInstance y) })
    | none => none
  | none => none

def execBarRelease (i : Nat) (s : State) : Out := .next (orStay s (tryBarRelease i s))

/-- DOMAIN_BREAK (R396), with the arrival record of the clk (R397). -/
def tryDomainBreak (i : Nat) (s : State) : Option State :=
  match s.domains[i]? with
  | some x =>
    if !x.broken && x.commit.isNone && x.arrivals.any (fun a => a.limit != 0 && decide (a.clk + a.limit ≤ s.cycle)) then
      some { s with domains := s.domains.set i { x with
        broken := true, toDue := some (s.cycle + barDelay x), record := upTo 16 (arrivalMask s x) } }
    else none
  | none => none

def execDomainBreak (i : Nat) (s : State) : Out := .next (orStay s (tryDomainBreak i s))

/-- TIMEOUT_COMPLETE (R396). -/
def tryTimeoutComplete (i : Nat) (s : State) : Option State :=
  match s.domains[i]? with
  | some x =>
    match x.toDue with
    | some n =>
      if s.cycle < n then none
      else
        let (x, s) := completeTimeouts s.cycle x s
        some { s with domains := s.domains.set i x }
    | none => none
  | none => none

def execTimeoutComplete (i : Nat) (s : State) : Out := .next (orStay s (tryTimeoutComplete i s))

/-- One clk of a domain with a parked member: its time-outs do not count it (R457). -/
def holdTimeouts (s : State) (x : Domain) : Domain :=
  if x.arrivals.isEmpty ∨ !(domTiles s x).any (tileAway s x.job) then x
  else { x with arrivals := x.arrivals.map (fun a => { a with clk := a.clk + 1 }) }

end Sys2Proof.Machine
end

