-- ==== Sys2Proof/Machine/Keccak.lean ====
section
/-! DEFINITION. The digest of a Calsy image: SHAKE256 with 32 bytes of output (R440, R443). The spec names the function; its
definition is the published standard's (log entry 15). -/

namespace Sys2Proof.Machine

/-- Lane (x, y) of the 25 lanes of the sponge, at position x + 5 y. -/
def laneAt (a : List W64) (x y : Nat) : W64 := a.getD (x % 5 + 5 * (y % 5)) 0

/-- The lanes as a function of their place. -/
def mkLanes (f : Nat → Nat → W64) : List W64 := upTo 25 (fun i => f (i % 5) (i / 5))

/-- The walk over the 24 lanes other than (0, 0), with the steps left as fuel: lane position and rotation. Step `t` rotates by
the triangular number of t + 1. -/
def rhoWalk : Nat → Nat → Nat → Nat → SMap Nat
  | 0, _, _, _ => []
  | f + 1, t, x, y => (x + 5 * y, (t + 1) * (t + 2) / 2 % 64) :: rhoWalk f (t + 1) y ((2 * x + 3 * y) % 5)

/-- The rotation of the lane at a position; lane (0, 0) is not rotated. -/
def rhoOf (i : Nat) : Nat := (((rhoWalk 24 0 1 0).find? (fun p => p.1 == i)).map Prod.snd).getD 0

/-- The byte of the constant generator after `t` shifts: feedback 0x71. -/
def lfsr : Nat → BitVec 8
  | 0 => 1
  | t + 1 => let b := lfsr t; if b.msb then (b <<< 1) ^^^ 0x71 else b <<< 1

/-- The constant of a round: bit 2^j - 1 is the low bit of the generator after 7 * round + j shifts. -/
def iotaWord (round : Nat) : W64 :=
  (List.range 7).foldl (fun w j => putBit w (2 ^ j - 1) ((lfsr (7 * round + j)).getLsbD 0)) 0

/-- One round of the permutation: column parities folded in, lanes rotated and moved, rows mixed, the constant added. -/
def keccakRound (lanes : List W64) (round : Nat) : List W64 :=
  let parity (x : Nat) : W64 := (List.range 5).foldl (fun w y => w ^^^ laneAt lanes x y) 0
  let mixed := mkLanes (fun x y => laneAt lanes x y ^^^ (parity (x + 4) ^^^ (parity (x + 1)).rotateLeft 1))
  let moved := mkLanes (fun x y => (laneAt mixed (x + 3 * y) x).rotateLeft (rhoOf ((x + 3 * y) % 5 + 5 * x)))
  mkLanes (fun x y =>
    let w := laneAt moved x y ^^^ (~~~ laneAt moved (x + 1) y &&& laneAt moved (x + 2) y)
    if x + y = 0 then w ^^^ iotaWord round else w)

/-- The permutation of 24 rounds. -/
def keccakF (lanes : List W64) : List W64 := (List.range 24).foldl keccakRound lanes

/-- Absorb one block of 136 bytes. -/
def absorb (a : List W64) (block : List Byte) : List W64 :=
  keccakF (upTo 25 (fun i => a.getD i 0 ^^^ (if i < 17 then BitVec.ofNat 64 (leAt block (8 * i) 8) else 0)))

/-- A message with the padding of SHAKE256. -/
def shakePad (bs : List Byte) : List Byte :=
  let n := 136 - bs.length % 136
  bs ++ (if n = 1 then [0x9F] else [0x1F] ++ List.replicate (n - 2) 0 ++ [0x80])

/-- SHAKE256 with 32 bytes of output. -/
def shake256 (bs : List Byte) : List Byte :=
  let a := (chunks 136 (shakePad bs)).foldl absorb (List.replicate 25 0)
  (a.take 4).flatMap (fun w => leBytes 8 w.toNat)

end Sys2Proof.Machine
end

