-- ==== Sys2Proof/Machine/Integer.lean ====
section
/-! DEFINITION. The keeper's integer instructions (R231, R232): no trap on any value, no flag. -/

namespace Sys2Proof.Machine

/-- A sign-extended 15-bit immediate (R226). -/
def immS (i : BitVec 15) : W64 := i.signExtend 64
/-- A zero-extended 15-bit immediate (R231). -/
def immU (i : BitVec 15) : W64 := i.zeroExtend 64

/-- An instruction that writes kd after `lat` clk and does nothing else (R229). -/
def alu (d : BitVec 5) (v : W64) (lat : Nat) (s : State) : Out := .next (retireReg s d v lat)

/-- Left shift with counts of 64 or more giving 0 (R232). -/
def shlW (x : W64) (c : Nat) : W64 := if 64 ≤ c then 0 else x <<< c
/-- Logical right shift. -/
def shrW (x : W64) (c : Nat) : W64 := x >>> c
/-- Arithmetic right shift. -/
def sarW (x : W64) (c : Nat) : W64 := x.sshiftRight c

/-- DIV (R232): toward zero; by 0 gives -1; -2^63 by -1 gives -2^63. -/
def divS (x y : W64) : W64 := if y = 0 then -1 else x.sdiv y
/-- DIVU (R232): by 0 gives all ones. -/
def divU (x y : W64) : W64 := if y = 0 then -1 else x / y
/-- REM (R232): by 0 gives ka. -/
def remS (x y : W64) : W64 := if y = 0 then x else x.srem y
/-- REMU (R232): by 0 gives ka. -/
def remU (x y : W64) : W64 := if y = 0 then x else x % y

/-- The number of 1 bits. -/
def popcount (n : Nat) (x : BitVec n) : Nat := ((List.range n).filter (fun i => x.getLsbD i)).length
/-- The number of leading zero bits of a 64-bit word. -/
def clzW (x : W64) : Nat := ((List.range 64).find? (fun i => x.getLsbD (63 - i))).getD 64
/-- The number of trailing zero bits of a 64-bit word. -/
def ctzW (x : W64) : Nat := ((List.range 64).find? (fun i => x.getLsbD i)).getD 64

def execAdd (d a b : BitVec 5) (s : State) : Out := alu d (kreg s a + kreg s b) 1 s
def execSub (d a b : BitVec 5) (s : State) : Out := alu d (kreg s a - kreg s b) 1 s
def execAnd (d a b : BitVec 5) (s : State) : Out := alu d (kreg s a &&& kreg s b) 1 s
def execOr (d a b : BitVec 5) (s : State) : Out := alu d (kreg s a ||| kreg s b) 1 s
def execXor (d a b : BitVec 5) (s : State) : Out := alu d (kreg s a ^^^ kreg s b) 1 s
def execAndn (d a b : BitVec 5) (s : State) : Out := alu d (kreg s a &&& ~~~ kreg s b) 1 s
def execShl (d a b : BitVec 5) (s : State) : Out := alu d (shlW (kreg s a) (kreg s b).toNat) 1 s
def execShr (d a b : BitVec 5) (s : State) : Out := alu d (shrW (kreg s a) (kreg s b).toNat) 1 s
def execSar (d a b : BitVec 5) (s : State) : Out := alu d (sarW (kreg s a) (kreg s b).toNat) 1 s
def execSlt (d a b : BitVec 5) (s : State) : Out := alu d (boolW ((kreg s a).slt (kreg s b))) 1 s
def execSltu (d a b : BitVec 5) (s : State) : Out := alu d (boolW ((kreg s a).ult (kreg s b))) 1 s
def execMin (d a b : BitVec 5) (s : State) : Out :=
  alu d (if (kreg s a).slt (kreg s b) then kreg s a else kreg s b) 1 s
def execMax (d a b : BitVec 5) (s : State) : Out :=
  alu d (if (kreg s a).slt (kreg s b) then kreg s b else kreg s a) 1 s
def execMinu (d a b : BitVec 5) (s : State) : Out :=
  alu d (if (kreg s a).ult (kreg s b) then kreg s a else kreg s b) 1 s
def execMaxu (d a b : BitVec 5) (s : State) : Out :=
  alu d (if (kreg s a).ult (kreg s b) then kreg s b else kreg s a) 1 s
def execMul (d a b : BitVec 5) (s : State) : Out := alu d (kreg s a * kreg s b) 3 s
def execMulh (d a b : BitVec 5) (s : State) : Out :=
  alu d (((kreg s a).signExtend 128 * (kreg s b).signExtend 128).extractLsb' 64 64) 3 s
def execMulhu (d a b : BitVec 5) (s : State) : Out :=
  alu d (((kreg s a).zeroExtend 128 * (kreg s b).zeroExtend 128).extractLsb' 64 64) 3 s
def execDiv (d a b : BitVec 5) (s : State) : Out := alu d (divS (kreg s a) (kreg s b)) 18 s
def execDivu (d a b : BitVec 5) (s : State) : Out := alu d (divU (kreg s a) (kreg s b)) 18 s
def execRem (d a b : BitVec 5) (s : State) : Out := alu d (remS (kreg s a) (kreg s b)) 18 s
def execRemu (d a b : BitVec 5) (s : State) : Out := alu d (remU (kreg s a) (kreg s b)) 18 s
def execPopc (d a : BitVec 5) (s : State) : Out := alu d (BitVec.ofNat 64 (popcount 64 (kreg s a))) 1 s
def execClz (d a : BitVec 5) (s : State) : Out := alu d (BitVec.ofNat 64 (clzW (kreg s a))) 1 s
def execCtz (d a : BitVec 5) (s : State) : Out := alu d (BitVec.ofNat 64 (ctzW (kreg s a))) 1 s
def execAddi (d a : BitVec 5) (i : BitVec 15) (s : State) : Out := alu d (kreg s a + immS i) 1 s
def execAndi (d a : BitVec 5) (i : BitVec 15) (s : State) : Out := alu d (kreg s a &&& immU i) 1 s
def execOri (d a : BitVec 5) (i : BitVec 15) (s : State) : Out := alu d (kreg s a ||| immU i) 1 s
def execXori (d a : BitVec 5) (i : BitVec 15) (s : State) : Out := alu d (kreg s a ^^^ immU i) 1 s
def execSlti (d a : BitVec 5) (i : BitVec 15) (s : State) : Out := alu d (boolW ((kreg s a).slt (immS i))) 1 s
def execSltiu (d a : BitVec 5) (i : BitVec 15) (s : State) : Out := alu d (boolW ((kreg s a).ult (immS i))) 1 s
def execShli (d a : BitVec 5) (c : BitVec 6) (s : State) : Out := alu d (shlW (kreg s a) c.toNat) 1 s
def execShri (d a : BitVec 5) (c : BitVec 6) (s : State) : Out := alu d (shrW (kreg s a) c.toNat) 1 s
def execSari (d a : BitVec 5) (c : BitVec 6) (s : State) : Out := alu d (sarW (kreg s a) c.toNat) 1 s
def execAddhi (d a : BitVec 5) (i : BitVec 15) (s : State) : Out := alu d (kreg s a + (immS i <<< 15)) 1 s

end Sys2Proof.Machine
end

