-- ==== Sys2Proof/Machine/LoadStore.lean ====
section
/-! DEFINITION. The keeper's loads and stores (R233, R234), branches and jumps (R235). -/

namespace Sys2Proof.Machine

/-- The address of a load or store (R233). -/
def loadAddr (s : State) (a : BitVec 5) (i : BitVec 15) : W64 := kreg s a + immS i

/-- The value of `n` loaded bytes, sign- or zero-extended (R233). -/
def extend (n : Nat) (signed : Bool) (x : Nat) : W64 :=
  if signed then BitVec.ofInt 64 (signedN (8 * n) x) else BitVec.ofNat 64 x

/-- A load of `n` bytes into kd, readable 5 clk later (R229, R233). -/
def loadTo (d a : BitVec 5) (i : BitVec 15) (n : Nat) (signed skew : Bool) (s : State) : State :=
  keeperAccess (loadAddr s a i) n false skew
    (fun x s => retireReg (modCur s (useBank s.cycle x)) d (extend n signed (Mem.load (cur s).sram x n)) 5) s

/-- A store of the low `n` bytes of ks (R233). -/
def storeFrom (r a : BitVec 5) (i : BitVec 15) (n : Nat) (skew : Bool) (s : State) : State :=
  keeperAccess (loadAddr s a i) n true skew
    (fun x s => advance (modCur s (fun t => storeBytes x (leBytes n (kreg s r).toNat) (useBank s.cycle x t)))) s

def execLb (d a : BitVec 5) (i : BitVec 15) (s : State) : Out := .next (loadTo d a i 1 true false s)
def execLbu (d a : BitVec 5) (i : BitVec 15) (s : State) : Out := .next (loadTo d a i 1 false false s)
def execLh (d a : BitVec 5) (i : BitVec 15) (s : State) : Out := .next (loadTo d a i 2 true false s)
def execLhu (d a : BitVec 5) (i : BitVec 15) (s : State) : Out := .next (loadTo d a i 2 false false s)
def execLw (d a : BitVec 5) (i : BitVec 15) (s : State) : Out := .next (loadTo d a i 4 true false s)
def execLwu (d a : BitVec 5) (i : BitVec 15) (s : State) : Out := .next (loadTo d a i 4 false false s)
def execLd (d a : BitVec 5) (i : BitVec 15) (s : State) : Out := .next (loadTo d a i 8 false false s)
def execLdSk (d a : BitVec 5) (i : BitVec 15) (s : State) : Out := .next (loadTo d a i 8 false true s)
def execSb (r a : BitVec 5) (i : BitVec 15) (s : State) : Out := .next (storeFrom r a i 1 false s)
def execSh (r a : BitVec 5) (i : BitVec 15) (s : State) : Out := .next (storeFrom r a i 2 false s)
def execSw (r a : BitVec 5) (i : BitVec 15) (s : State) : Out := .next (storeFrom r a i 4 false s)
def execSd (r a : BitVec 5) (i : BitVec 15) (s : State) : Out := .next (storeFrom r a i 8 false s)
def execSdSk (r a : BitVec 5) (i : BitVec 15) (s : State) : Out := .next (storeFrom r a i 8 true s)

/-- The PC of the issuing instruction. -/
def pcOf (s : State) : W64 := (cur s).keeper.pc

/-- A branch: the next issue is 3 clk later when it is taken (R230, R235). -/
def branch (c : Bool) (i : BitVec 15) (s : State) : Out :=
  .next (if c then goTo s (pcOf s + (immS i <<< 2)) 3 else advance s)

def execBeq (a b : BitVec 5) (i : BitVec 15) (s : State) : Out := branch (kreg s a == kreg s b) i s
def execBne (a b : BitVec 5) (i : BitVec 15) (s : State) : Out := branch (kreg s a != kreg s b) i s
def execBlt (a b : BitVec 5) (i : BitVec 15) (s : State) : Out := branch ((kreg s a).slt (kreg s b)) i s
def execBge (a b : BitVec 5) (i : BitVec 15) (s : State) : Out := branch (!(kreg s a).slt (kreg s b)) i s
def execBltu (a b : BitVec 5) (i : BitVec 15) (s : State) : Out := branch ((kreg s a).ult (kreg s b)) i s
def execBgeu (a b : BitVec 5) (i : BitVec 15) (s : State) : Out := branch (!(kreg s a).ult (kreg s b)) i s

/-- The target of J and JAL (R226, R235). -/
def jumpTarget (s : State) (i : BitVec 25) : W64 := pcOf s + (i.signExtend 64 <<< 2)

def execJ (i : BitVec 25) (s : State) : Out := .next (goTo s (jumpTarget s i) 3)
def execJal (i : BitVec 25) (s : State) : Out := .next (goTo (putReg s 31 (pcOf s + 4) 1) (jumpTarget s i) 3)

/-- JALR (R235): a target that is no multiple of 4 traps MISALIGNED and changes nothing. -/
def execJalr (d a : BitVec 5) (i : BitVec 15) (s : State) : Out :=
  let target := loadAddr s a i
  .next (if target.toNat % 4 ≠ 0 then trapMisaligned target s else goTo (putReg s d (pcOf s + 4) 1) target 3)

end Sys2Proof.Machine
end

