-- ==== Sys2Proof/Machine/LampInstr.lean ====
section
/-! DEFINITION. The lamp-control instructions of the keeper (R296 to R304), and the lamp events FLASH_DELIVERY,
LSTART_FIRST_BUNDLE and REQUEST_GRANT. -/

namespace Sys2Proof.Machine

/-! ## FLASH, LSTART (R297 to R299) -/

/-- The checks of R297 on an address whose low bits `low` must be zero; a mask of zero has no effect at all. -/
def flashCheck (a : W64) (low : W64) (s : State) (k : State → Option State) : Option State :=
  if a &&& low != 0 then some (trapMisaligned a s)
  else if jobLimit (cur s) < a.toNat / 256 * 256 + 192 then some (trapBound a s)
  else k s

/-- FLASH (R298): none while the flash queue is full. -/
def tryFlash (a b : BitVec 5) (s : State) : Option State :=
  let w := kreg s a
  let mask : BitVec 16 := (kreg s b).extractLsb' 0 16
  if mask = 0 then some (advance s)
  else flashCheck w 0xFF s (fun s =>
    let t := cur s
    let e : FlashEntry := ⟨w.toNat, mask⟩
    if atStation t then
      if t.stFlash.isSome then none else some (advance (modCur s (fun t => { t with stFlash := some e })))
    else if 4 ≤ t.eng.flashQ.length then none
    else some (advance (modCur s (fun t => { t with eng := { t.eng with flashQ := t.eng.flashQ ++ [e] } }))))

def execFlash (a b : BitVec 5) (s : State) : Out := .next (orWait (.flash a b) s (tryFlash a b s))

/-- Put a lamp at a block and bundle with its code (R69, R77, R299). -/
def Lamp.begin (st : LampState) (block bundle now : Nat) (code : List Bundle) (x : Lamp) : Lamp :=
  { x with st := st, wait := .none, block := BitVec.ofNat 13 block, bundle := BitVec.ofNat 3 bundle, code := code,
           fetched := none, rep := none, nextAt := now, flash := 0, steps := 0, reps := [], fence := false }

/-- LSTART on one target (R99, R299): a STOPPED one waits for its block, which the lamps read from the next clk on. -/
def startLamp (a : Nat) (l : Nat) (now : Nat) (t : Tile) : Tile :=
  modLamp l (fun x =>
    match x.st with
    | .stopped => x.begin .running (a / 256) (a % 8) (now + 6) (List.replicate 8 0)
    | .faulted => { x.unpause (now + 1) with st := x.goOn, cause := 0, slot := 0 }
    | _ => x) t

def execLstart (a b : BitVec 5) (s : State) : Out :=
  let w := kreg s a
  let mask := kreg s b &&& 0xFFFF
  .next ((if mask = 0 then some (advance s)
    else flashCheck w 0xF8 s (fun s =>
      let t := cur s
      let stopped := (maskLamps mask).filter (fun l => (lampAt t l).st == .stopped)
      let s := modCur s (fun t => (maskLamps mask).foldl (fun t l => startLamp w.toNat l s.cycle t) t)
      some (advance (if stopped.isEmpty then s else modCur s (fun t => { t with
        lstarts := t.lstarts ++ [⟨BitVec.ofNat 16 (sumN (stopped.map (fun l => 2 ^ l))), s.cycle + 6, blockGranules⟩] })))))
    |>.getD s)

/-! ## LSTOP, LJOIN, LGROUP (R300 to R302) -/

/-- A lamp is no longer among the targets of an LSTART whose first bundle is to come. -/
def dropStart (l : Nat) (t : Tile) : Tile :=
  { t with lstarts := (t.lstarts.map (fun x => { x with mask := x.mask &&& ~~~ (1#16 <<< l) })).filter (fun x => x.mask != 0) }

/-- LSTOP on one target (R69, R97, R300). -/
def lstopLamp (r l : Nat) (s : State) : State :=
  let s := modTile s r (dropStart l)
  let x := lampAt (tileOf s r) l
  match x.st with
  | .stopped => s
  | .faulted =>
    let s := modTile s r (modLamp l (fun x =>
      { x with flight := [], fills := [], paused := false, cause := 0, slot := 0, nextAt := s.cycle }))
    stopLamp r l true s
  | .blocked =>
    let s := modTile s r (cancelRequests l)
    let s := if x.wait = .dispatch then
        modLens s (clusterOf r) (fun c => { c with accepted := c.accepted.map (fun a =>
          if a.tile = posOf r ∧ a.claim.map Fin.val = some l then { a with claim := none } else a) })
      else s
    stopLamp r l true s
  | _ => stopLamp r l true s

def execLstop (a : BitVec 5) (s : State) : Out :=
  .next (advance ((maskLamps (kreg s a)).foldl (fun s l => lstopLamp s.focus.val l s) s))

/-- LJOIN (R301): none while a target runs or has an access that has not taken effect. -/
def tryLjoin (d a : BitVec 5) (s : State) : Option State :=
  let t := cur s
  let ls := maskLamps (kreg s a)
  if ls.all (fun l => (lampAt t l).ended && !(lampAt t l).flight.any InFlight.pending) then
    some (retireReg s d (BitVec.ofNat 64
      (sumN ((ls.filter (fun l => (lampAt t l).st == .faulted)).map (fun l => 2 ^ l)))) 1)
  else none

def execLjoin (d a : BitVec 5) (s : State) : Out := .next (orWait (.ljoin d a) s (tryLjoin d a s))

/-- LGROUP (R87, R302). -/
def execLgroup (a b : BitVec 5) (s : State) : Out :=
  let t := cur s
  let g := fld (kreg s a) 0 2
  let f := fld (kreg s b) 0 9
  let c := fld (kreg s b) 16 9
  let floors := vset t.act.floors g f
  .next (if c < f ∨ 256 < c ∨ 256 < sumN floors.toList ∨ claimWaits t then trapIllegal (wordOf (.lgroup a b)) s
    else advance (modCur s (fun t => { t with act := { t.act with floors := floors, ceils := vset t.act.ceils g c } })))

/-! ## LSTATE, LWRITE (R303) -/

/-- A half of a 128-bit value. -/
def half64 (v : V128) (h : Nat) : W64 := v.extractLsb' (64 * h) 64

/-- A 128-bit value with one half replaced. -/
def putHalf (v : V128) (h : Nat) (w : W64) : V128 :=
  if h = 0 then v.extractLsb' 64 64 ++ w else w ++ v.extractLsb' 0 64

/-- The pointers of a lamp, ten bits a bank. -/
def ptrWord (x : Lamp) : Nat :=
  sumN (upTo 4 (fun b => match vget x.ptrs b none with
    | some w => (512 + ofBool w.loan * 256 + w.block % 256) * 2 ^ (10 * b)
    | none => 0))

/-- Operations in flight of a unit and the least of their remaining clk (R68); a held lamp counts from the hold. -/
def flightWord (now : Nat) (x : Lamp) (u : Nat) : Nat :=
  let rest (n : Nat) : Nat := if x.paused then n else n - now
  let ds := ((x.flight.filter (fun o => if u = 7 then o.unit == 8 else o.unit == u)).map (fun o => rest o.due))
    ++ (if u = 7 then ((x.fetched.map (fun b => rest b.readyAt)).toList.filter (fun n => n != 0)) else [])
  match ds with
  | [] => 0
  | d :: more => Nat.min ds.length 15 + 16 * Nat.min (more.foldl Nat.min d) 255

/-- The copy engine's queue and running command (R303). -/
def copyState (t : Tile) : Nat :=
  Nat.min (t.eng.copyQ.length) 3 + (match t.copyRun with | some c => 4 + c.cmd.tout.toNat * 256 | none => 0)

/-- The value of an item (R303), none where the table lists none. -/
def lstateItem (t : Tile) (now u item idx : Nat) : Option W64 :=
  let n (x : Nat) : Option W64 := some (BitVec.ofNat 64 x)
  if u = 16 then
    match item, idx with
    | 0, 0 => some t.eng.copyFault
    | 1, 0 => n (copyState t)
    | _, _ => none
  else if u = 17 then
    match item with
    | 0 => if idx = 0 then n (phi t + reserve t * 2 ^ 16 + t.loanQ.length * 2 ^ 32) else none
    | 1 => if idx < 4 then n (floorOf t idx + ceilOf t idx * 2 ^ 16 + held t idx * 2 ^ 32) else none
    | 2 =>
      if idx < 4 then n ((queueOf t idx).length
        + ((t.takeQ ++ t.loanQ).filter (fun q => q.kind == .take && q.group == idx)).length * 2 ^ 8
        + (t.passQ.filter (fun q => q.group == idx)).length * 2 ^ 16) else none
    | _ => none
  else if 17 < u then none
  else
    let x := lampAt t u
    match item with
    | 0x10 =>
      if 64 ≤ idx then none
      else some (half64 ((vreg t u (idx % 32)).getD 0) (idx / 32))
    | 0x11 => if 64 ≤ idx then none else some (half64 (vget x.ports (idx % 32) 0) (idx / 32))
    | 0x12 =>
      if 4 ≤ idx then none
      else some (match x.fifo[idx % 2]? with | some e => half64 e.val (idx / 2) | none => 0)
    | 0x13 => if 8 ≤ idx then none else n (flightWord now x idx)
    | _ =>
      if idx ≠ 0 then none
      else match item with
        | 0x00 => some (statusWord x)
        | 0x01 => n (x.block.toNat * 256 + x.bundle.toNat)
        | 0x02 => n (ptrWord x)
        | 0x03 => n x.preds.toNat
        | 0x04 => n x.linkIdx.toNat
        | 0x05 => n x.mode.toNat
        | 0x06 => n x.flags.toNat
        | 0x07 => n x.gen.toNat
        | 0x08 => n (vget t.signals u 0).toNat
        | 0x09 => n (match x.fetched with | some b => 1 + b.block.toNat * 256 | none => 0)
        | 0x0A => n (match x.rep with
            | some p => p.pass + p.n1 * 2 ^ 8 + p.len1 * 2 ^ 16 + p.stride * 2 ^ 20 + p.pos * 2 ^ 25
            | none => 0)
        | 0x0B => n x.group.toNat
        | _ => none

/-- The unit, item and index of a selector, none where another bit is set (R303). -/
def selector (w : W64) : Option (Nat × Nat × Nat) :=
  if w &&& ~~~ (0xFFFF1F : W64) != 0 then none else some (fld w 0 5, fld w 8 8, fld w 16 8)

def execLstate (d a : BitVec 5) (s : State) : Out :=
  let w := kreg s a
  .next (match (selector w).bind (fun x => lstateItem (cur s) s.cycle x.1 x.2.1 x.2.2) with
    | some v => retireReg s d v 2
    | none => trapIllegal w s)

/-- A lamp of which an LWRITE changes an item that its bundle of this clk still reads as it was (R303, R499). -/
def Lamp.written (f : Lamp → Lamp) (x : Lamp) : Lamp := { f x with old := some x.before }

/-- A tile after an LWRITE, none where the item is not writable in the present state (R303). -/
def lwriteItem (now u item idx : Nat) (v : W64) (t : Tile) : Option Tile :=
  let x := lampAt t u
  let put (f : Lamp → Lamp) : Option Tile := some (modLamp u (Lamp.written f) t)
  let v32 : W32 := v.extractLsb' 0 32
  if u = 16 then
    if item = 0 ∧ idx = 0 then
      some (if v = 0 then { t with eng := { t.eng with copyFault := 0 } } else t)
    else none
  else if 16 ≤ u then none
  else if item = 0x10 then
    if 64 ≤ idx then none
    else match x.bank (idx % 32 / 8) with
      | some w =>
        let n := w.block * 8 + idx % 32 % 8
        let old := SMap.getD t.ws n 0
        some (modLamp u (fun x => { x with
            old := some { x.before with reg := some ((x.before.reg).getD (n, old)) },
            fills := x.fills ++ [(4 + idx % 32 / 8, now + 1)] })
          (putVreg u (idx % 32) (putHalf old (idx / 32) v) t))
      | none => none
  else if idx ≠ 0 then none
  else match item with
    | 0x01 =>
      if x.st = .stopped then put (fun x => { x with block := v.extractLsb' 8 13, bundle := v.extractLsb' 0 3 }) else none
    | 0x03 => put (fun x => { x with preds := (v.extractLsb' 0 8 &&& 0xFE) ||| 1 })
    | 0x04 => put (fun x => { x with linkIdx := v.extractLsb' 0 4 })
    | 0x05 => put (fun x => { x with mode := v32 &&& 3 })
    | 0x06 => put (fun x => { x with flags := v32 &&& 0x3F })
    | 0x07 => put (fun x => { x with gen := seedOf v32 })
    | 0x0B =>
      if x.st = .stopped ∧ x.banks = 0 then put (fun x => { x with group := v.extractLsb' 0 2 }) else none
    | _ => none

def execLwrite (a b : BitVec 5) (s : State) : Out :=
  let w := kreg s a
  .next (match (selector w).bind (fun x => lwriteItem s.cycle x.1 x.2.1 x.2.2 (kreg s b) (cur s)) with
    | some t => advance (setTile s s.focus.val t)
    | none => trapIllegal w s)

/-! ## LSWAP (R100, R304) -/

/-- The exchange of the active and the saved set (R100, R304): no lamp issues for 64 clk. -/
def swapLamps (now : Nat) (t : Tile) : Tile :=
  let t := mapLamps (fun _ x => { x with old := none }) (pauseLamps (now + 1) t)
  let t := { t with act := t.saved, saved := t.act, lswapUntil := now + 64 }
  if t.lampsStopped then t else unpauseLamps (now + 64) t

def execLswap (s : State) : Out :=
  let t := cur s
  .next (if !atStation t then trapPriv (wordOf .lswap) s
    else if !(t.act.lamps.toList.all Lamp.ended || t.lampsStopped) then trapIllegal (wordOf .lswap) s
    else goTo (modCur s (swapLamps s.cycle)) (t.keeper.pc + 4) 64)

/-! ## Events -/

/-- The targets of a flash. -/
def FlashEntry.lamps (e : FlashEntry) : List Nat := maskLamps (e.mask.zeroExtend 64)

/-- The first flash that can be delivered at the end of this clk: its targets are STOPPED, and no earlier one has a target in
common (R77, R298); the station's entry comes before the job's, which do not start during a park (R455). -/
def readyFlash (t : Tile) : Option FlashEntry :=
  let q := t.stFlash.toList ++ (if t.parkSeen || t.keeper.preempted then [] else t.eng.flashQ)
  (q.zipIdx.find? (fun p =>
    p.1.lamps.all (fun l => (lampAt t l).st == .stopped)
      && (q.take p.2).all (fun e => e.mask &&& p.1.mask == 0))).map Prod.fst

/-- FLASH_DELIVERY (R77), at the boundary at which the present clk begins: every target executes bundle 0 in this clk. -/
def execFlashDelivery (r : TileId) (s : State) : Out :=
  let t := tileOf s r.val
  .next (if tileHeld s.cycle t then s
    else match readyFlash t with
      | none => s
      | some e =>
        modTile s r.val (fun t =>
          let code := readBlock t.sram e.addr
          let t := if t.stFlash = some e then { t with stFlash := none }
            else { t with eng := { t.eng with flashQ := t.eng.flashQ.erase e } }
          let id := s.cycle * 16 + e.lamps.headD 0 + 1
          e.lamps.foldl (fun t l => modLamp l (fun x =>
            { x.begin .flashed (e.addr / 256) 0 s.cycle code with seen := .flashed, flash := id }) t) t))

/-- The classes of the two claims of a dispatch when they issue: bit 0 says the claim for bank 2 is a loan, bit 1 the
claim for bank 3 (R90). -/
def claimClass (t : Tile) (g : Nat) : Nat :=
  (if claimOwn t g then 0 else 1) + (if decide (heldNow t g + 1 < floorOf t g) then 0 else 2)

/-- The row fill and start of a drain handler once its claims, classified `cls` at issue, are granted (R90, R96). -/
def dispatchNow (r l : Nat) (a : BankCmd) (row cls : Nat) (s : State) : State :=
  let c := clusterOf r
  let s := claimInto (claimInto s r l 2 (cls.testBit 0)) r l 3 (cls.testBit 1)
  let word (j : Nat) : W32 := accWord s c row j
  let h := fld a.cmd.d1 0 21
  let s := modTile s r (fun t =>
    let t := (List.range 16).foldl (fun t i => putVreg l (16 + i) (packLanes 32 (upTo 4 (fun m => word (4 * i + m)))) t) t
    let old := (vreg t l 15).getD 0
    let t := putVreg l 15 (old.extractLsb' 32 96 ++ BitVec.ofNat 32 row) t
    modLamp l (fun x => { x.begin .draining (h / 256) 0 (s.cycle + 8) (readBlock t.sram (h / 256 * 256)) with
      drain := true, row := some row, fills := x.fills ++ [(2, s.cycle + 8), (3, s.cycle + 8)] }) t)
  modLens s c (fun x => { x with
    held := x.held ++ [(row, posOf r, Fin.ofNat 16 l)],
    accepted := x.accepted.map (fun b => if b.tile = posOf r ∧ b.cmd.stamp = a.cmd.stamp then
      { b with claim := none, pos := b.pos + 1, out := b.out ++ [row] } else b) })

/-- Whether the link moves of a waiting bundle could be made now. -/
def linkFree (s : State) (r : Nat) (l : Nat) : Bool :=
  let t := tileOf s r
  let x := lampAt t l
  let ms := movesOf x x.current
  let ds := (ms.filter (fun m => decide (0x28 ≤ m.dst ∧ m.dst < 0x2B))).map (fun m => linkTarget x l (m.dst - 0x28))
  (!ms.any (fun m => m.src == 0x2C) || (linkHead t s.cycle l).isSome)
    && ds.all (fun d => (lampAt t d).fifo.length + (ds.filter (fun e => e == d)).length ≤ 2)

/-- The slot of the `ct` trigger of the bundle a lamp stands at. -/
def ctSlot (s : State) (r l : Nat) : Nat := match ctOf (evalMoves s r l) with | some (e, _) => e.m.slot | none => 0

/-- What comes of a waiting request now (R91, R93): nothing, its grant, a fault, its classification in its place or in the loan
queue. -/
inductive Grant where | no | grant | fault | classified (h : Nat) (loan : Bool) | toLoan (h : Nat)
  deriving DecidableEq, Repr

/-- The outcome of a request that is first of its queue. A take is classified at the first clk in which it is the oldest of
its queue and the queue holds a block (R90); the rest of its bundle may still make it wait. -/
def judge (s : State) (r : Nat) (q : Request) : Grant :=
  let t := tileOf s r
  let x := lampAt t q.lamp.val
  let g := x.group.toNat
  let free := q.kind == .dispatch || (linkFree s r q.lamp.val && !lateResult s.cycle x)
  match q.kind, q.cls with
  | .claim, _ => if free && claimOk t g 1 true then .grant else .no
  | .dispatch, some (c, _) => if claimOk t g 2 (c != 0) then .grant else .no
  | .dispatch, none =>
    let c := claimClass t g
    if c = 0 || (firstLoan t q.stamp && claimOk t g 2 true) then .grant else .classified c true
  | .pass, _ => if free && decide ((queueOf t q.group).length < 16) then .grant else .no
  | .take, some (h, loan) => if free && (queueHead t q.group).isSome && takeOk t g h loan then .grant else .no
  | .take, none =>
    match queueHead t q.group with
    | none => .no
    | some (_, h) =>
      let loan := !takeOwn t g h
      if loan && x.holdsLoan then .fault
      else if takeOk t g h loan && (g == h || !loan || firstLoan t q.stamp) then (if free then .grant else .classified h loan)
      else .toLoan h

/-- The first request of each queue, in the order in which they are looked at; before them a dispatch issued in this clk, which
is classified at its lamp's turn (R90, R93). -/
def firstRequests (t : Tile) : List Request :=
  let firstOf (xs : List Request) : List Request :=
    (List.range 4).filterMap (fun g => xs.find? (fun q => q.group == g))
  let blockedTake (q : Request) : Bool := t.loanQ.any (fun x => x.kind == .take && x.group == q.group)
  t.loanQ.filter (fun q => q.kind == .dispatch && q.cls.isNone) ++ t.loanQ.take 1 ++ (firstOf t.takeQ).filter (fun q => !blockedTake q) ++ firstOf t.passQ

/-- Remove a request. -/
def dropRequest (q : Request) (t : Tile) : Tile :=
  { t with loanQ := t.loanQ.erase q, takeQ := t.takeQ.erase q, passQ := t.passQ.erase q }

/-- The first waiting request of a tile that something comes of. -/
def nextGrant (s : State) (r : Nat) : Option Request :=
  (firstRequests (tileOf s r)).find? (fun q => judge s r q != .no)

/-- Serve the first waiting request that something comes of, none where all go on waiting (R93). -/
def tryGrant (r : TileId) (s : State) : Option State :=
  if tileHeld s.cycle (tileOf s r.val) then none
  else
    (nextGrant s r.val).map (fun q =>
      let l := q.lamp.val
      let s1 := modTile s r.val (dropRequest q)
      match judge s r.val q with
      | .fault => lampFault r.val l (ctSlot s r.val l) 7 s1
      | .toLoan h => modTile s1 r.val (enterLoan { q with cls := some (h, true) })
      | .classified h loan => modTile s1 r.val (fun t =>
          if q.kind = .dispatch then enterLoan { q with cls := some (h, loan) } t
          else { t with takeQ := inOrder { q with cls := some (h, loan) } t.takeQ })
      | _ =>
        if q.kind = .dispatch then
          match (lensOf s (clusterOf r.val)).accepted.find? (fun a => a.tile == posOf r.val && a.claim == some q.lamp) with
          | some a =>
            let t := tileOf s r.val
            dispatchNow r.val l a (fld a.cmd.d0 0 12 + a.pos) ((q.cls.getD (claimClass t (lampAt t l).group.toNat, false)).1) s1
          | none => s1
        else lampIssue r q.lamp (some q) (agedAccesses r.val (settle r s1)))

/-- REQUEST_GRANT (R93). -/
def execRequestGrant (r : TileId) (s : State) : Out := .next (orStay s (tryGrant r s))

/-- A lamp's turn in a clk: the grant of its request, or its bundle (R74, R93). -/
def lampTurn (r : TileId) (l : Fin 16) (s : State) : State :=
  if (nextGrant s r.val).any (fun q => q.lamp == l) then orStay s (tryGrant r s)
  else tryBundle r l s

/-- Whether the first bundle of an LSTART can issue: its block has arrived, and none of its targets is held (R299). -/
def startReady (now : Nat) (t : Tile) (x : LStart) : Bool :=
  x.todo.isEmpty && (maskLamps (x.mask.zeroExtend 64)).all (fun l =>
    let y := lampAt t l
    !y.issuing || (decide (y.nextAt ≤ now) && !y.paused && !frozen t l))

/-- LSTART_FIRST_BUNDLE (R299): the started lamps issue their first bundle together, each in its turn among the lamps of the
tile (R81, R93). -/
def execLstartFirstBundle (r : TileId) (s : State) : Out :=
  let s1 := settle r s
  let t := tileOf s1 r.val
  .next (if tileHeld s.cycle t || !t.lstarts.any (startReady s.cycle t) then s
    else
      let s := modTile s1 r.val (fun t => { t with lstarts := t.lstarts.filter (fun x => !startReady s.cycle t x) })
      (List.finRange 16).foldl (fun s l => lampTurn r l s) s)

end Sys2Proof.Machine
end

