-- ==== Sys2Proof/Machine/Image.lean ====
section
/-! DEFINITION. The Calsy image and the LOAD payload: layout (R440, R441, R447), the CONF keys (R442), the launch state of a
tile (R444) and the checks of a load (R443). -/

namespace Sys2Proof.Machine

/-! ## Layout (R440, R441) -/

/-- A section-table entry. -/
structure Sect where
  kind : Nat
  index : Nat
  offset : Nat
  size : Nat
  deriving DecidableEq, Repr

/-- A CONF entry. -/
structure ConfEntry where
  key : Nat
  first : Nat
  last : Nat
  value : W64
  deriving DecidableEq, Repr

/-- A PLACE entry. -/
structure PlaceEntry where
  first : Nat
  last : Nat
  role : Nat
  duplex : Bool
  deriving DecidableEq, Repr

/-- An image as read: roles by index with entry address and bytes. -/
structure Image where
  prio : Nat
  atPhase : Bool
  digestOk : Bool
  roles : SMap (Nat × List Byte)
  place : List PlaceEntry
  boot : Option (List (Nat × List Nat))
  win : List W64
  conf : List ConfEntry
  deriving DecidableEq, Repr

/-- Whether some bytes are all zero. -/
def zeroBytes (bs : List Byte) (lo n : Nat) : Bool := leAt bs lo n == 0

/-- The section table of an image. -/
def sectsOf (bs : List Byte) : List Sect :=
  upTo (leAt bs 6 2) (fun i =>
    let a := 64 + 16 * i
    ⟨leAt bs a 1, leAt bs (a + 4) 4, leAt bs (a + 8) 4, leAt bs (a + 12) 4⟩)

/-- Whether the sections of a list overlap nowhere. -/
def disjointSects : List Sect → Bool
  | [] => true
  | x :: xs => xs.all (fun y => decide (x.offset + x.size ≤ y.offset ∨ y.offset + y.size ≤ x.offset)) && disjointSects xs

/-- Whether HEAD and section table keep R440. -/
def headOk (bs : List Byte) : Bool :=
  let n := leAt bs 6 2
  let ss := sectsOf bs
  let roles := ss.filter (fun x => x.kind == 1)
  let count (k : Nat) : Nat := (ss.filter (fun x => x.kind == k)).length
  leAt bs 0 4 == 0x4C414359 && leAt bs 4 2 == 1 && decide (2 ≤ n ∧ n ≤ 4096) && decide (leAt bs 8 1 < 4)
    && decide (leAt bs 9 1 < 2) && zeroBytes bs 10 6 && zeroBytes bs 24 8 && leAt bs 16 8 == bs.length
    && decide (64 + 16 * n ≤ bs.length)
    && (ss.zipIdx).all (fun p => zeroBytes bs (64 + 16 * p.2 + 1) 3 && decide (1 ≤ p.1.kind ∧ p.1.kind ≤ 5)
      && (p.1.kind == 1 || p.1.index == 0) && p.1.offset % 16 == 0 && decide (64 + 16 * n ≤ p.1.offset)
      && decide (p.1.offset + p.1.size ≤ bs.length))
    && disjointSects ss && roles.all (fun x => decide (x.index < roles.length))
    && (List.range roles.length).all (fun i => roles.any (fun x => x.index == i))
    && count 1 != 0 && count 2 == 1 && decide (count 3 ≤ 1) && decide (count 4 ≤ 1) && decide (count 5 ≤ 1)

/-- The bytes of a section. -/
def sectBytes (bs : List Byte) (x : Sect) : List Byte := (bs.drop x.offset).take x.size

/-- A ROLE section: entry address and bytes, none where malformed; the flash list is checked and not used. -/
def roleOf (b : List Byte) : Option (Nat × List Byte) :=
  let n := leAt b 20 4
  let q := roundUp (24 + n) 4
  let f := leAt b q 4
  if b.length < q + 4 ∨ b.length < q + 4 + 4 * f then none
  else if (List.range f).any (fun i =>
      let a := leAt b (q + 4 + 4 * i) 4
      a % 256 != 0 || decide (n < a + 256)) then none
  else if leAt b 16 4 % 4 ≠ 0 then none
  else some (leAt b 16 4, (b.drop 24).take n)

/-- A PLACE section. -/
def placeOf (roles : Nat) (b : List Byte) : Option (List PlaceEntry) :=
  let es := (chunks 8 b).map (fun x => BitVec.ofNat 64 (leNat x))
  if b.length % 8 ≠ 0 ∨ es.any (fun w => fld w 49 15 != 0 || decide (fld w 16 16 < fld w 0 16)
      || decide (roles ≤ fld w 32 16)) then none
  else some (es.map (fun w => ⟨fld w 0 16, fld w 16 16, fld w 32 16, bit w 48⟩))

/-- A BOOT section, with fuel for its length. -/
def bootAux : Nat → List Byte → Option (List (Nat × List Nat))
  | _, [] => some []
  | 0, _ :: _ => none
  | f + 1, b =>
    let n := leAt b 2 1
    let size := 8 + ceilDiv n 4 * 8
    if b.length < size ∨ !zeroBytes b 3 5 ∨ !zeroBytes b (8 + 2 * n) (ceilDiv n 4 * 8 - 2 * n) then none
    else (bootAux f (b.drop size)).map (fun r => (leAt b 0 2, upTo n (fun i => leAt b (8 + 2 * i) 2)) :: r)

/-- A WIN section: 64 entries, lost and reserved bits 0 (R430). -/
def winTable (b : List Byte) : Option (List W64) :=
  let es := (chunks 8 b).map (fun x => BitVec.ofNat 64 (leNat x))
  if b.length ≠ 512 ∨ es.any (fun w => bit w 62 || fld w 22 2 != 0) then none else some es

/-- The bits of a CONF value that are not reserved; a register's value is for its own rule to judge (R442). -/
def confBits (key : Nat) : W64 :=
  match key with
  | 1 => maskBits 0 3
  | 2 => maskBits 0 4
  | 3 => maskBits 0 18
  | 4 => maskBits 0 9 ||| maskBits 16 9 ||| maskBits 32 2
  | 0x11 => maskBits 0 22 ||| maskBits 32 3
  | _ => BitVec.allOnes 64

/-- A CONF section. -/
def confOf (b : List Byte) : Option (List ConfEntry) :=
  let es := chunks 16 b
  if b.length % 16 ≠ 0 ∨ es.any (fun e =>
      !decide (1 ≤ leAt e 0 2 ∧ leAt e 0 2 ≤ 0x11) || !zeroBytes e 2 2
      || BitVec.ofNat 64 (leAt e 8 8) &&& ~~~ confBits (leAt e 0 2) != 0) then none
  else some (es.map (fun e => ⟨leAt e 0 2, leAt e 4 2, leAt e 6 2, BitVec.ofNat 64 (leAt e 8 8)⟩))

/-- The value of a section kind that an image may leave out. -/
def optSect {α : Type} (bs : List Byte) (kind : Nat) (d : α) (f : List Byte → Option α) : Option α :=
  match (sectsOf bs).find? (fun x => x.kind == kind) with
  | some x => f (sectBytes bs x)
  | none => some d

/-- An image as read, none where a part of it is malformed. -/
def imageOf (bs : List Byte) : Option Image :=
  if !headOk bs then none
  else
    let ss := sectsOf bs
    let rs := (ss.filter (fun x => x.kind == 1)).map (fun x => (roleOf (sectBytes bs x)).map (fun r => (x.index, r)))
    if rs.any Option.isNone then none
    else
      match optSect bs 2 [] (placeOf rs.length),
            optSect bs 3 none (fun b => (bootAux b.length b).map some),
            optSect bs 4 (List.replicate 64 0) winTable, optSect bs 5 [] confOf with
      | some p, some b, some w, some c =>
        some ⟨leAt bs 8 1, leAt bs 9 1 % 2 == 1, shake256 (bs.drop 64) == sliceB bs 32 32,
              (rs.filterMap (fun x => x)).foldl (fun m p => SMap.insert m p.1 p.2) [], p, b, w, c⟩
      | _, _, _, _ => none

/-! ## The partition (R447) -/

/-- The rectangle count of a LOAD payload. -/
def rectCount (b : List Byte) : Nat := leAt b 0 4

/-- The partition of a LOAD payload. -/
def rectsOf (b : List Byte) : List Rect :=
  upTo (rectCount b) (fun i =>
    let at_ (k : Nat) : Nat := leAt b (8 + 8 * i + k) 1
    ⟨at_ 0, at_ 1, at_ 2, at_ 3, at_ 4⟩)

/-- The image bytes of a LOAD payload. -/
def imageBytes (b : List Byte) : List Byte := b.drop (roundUp (8 + 8 * rectCount b) 16)

/-- The clusters of a rectangle. -/
def rectClusters (q : Rect) : List Nat :=
  (List.range 32).filterMap (fun c =>
    if q.cx0 ≤ c % 4 ∧ c % 4 ≤ q.cx1 ∧ q.cy0 ≤ c / 4 ∧ c / 4 ≤ q.cy1 then some (q.die * 32 + c) else none)

/-- The clusters of a partition. -/
def partClusters (qs : List Rect) : List Nat := qs.flatMap rectClusters

/-- The tiles of a partition, rising: the index of R453 is the place in this list. -/
def partTiles (qs : List Rect) : List Nat :=
  sortBy (fun a b => decide (a < b)) ((partClusters qs).flatMap (fun c => upTo 8 (tileAt c)))

/-- Whether a list names nothing twice. -/
def distinctN : List Nat → Bool
  | [] => true
  | x :: xs => !xs.contains x && distinctN xs

/-- Whether the partition of a payload keeps R447. -/
def partOk (b : List Byte) : Bool :=
  let qs := rectsOf b
  decide (1 ≤ rectCount b ∧ rectCount b ≤ 128) && zeroBytes b 4 4
    && (List.range (rectCount b)).all (fun i => zeroBytes b (13 + 8 * i) 3)
    && qs.all (fun q => decide (q.die < 4 ∧ q.cx0 ≤ q.cx1 ∧ q.cx1 < 4 ∧ q.cy0 ≤ q.cy1 ∧ q.cy1 < 8))
    && distinctN (partClusters qs)

/-! ## Launch (R442, R444) -/

/-- Whether a CONF entry applies to a placed tile. -/
def ConfEntry.on (e : ConfEntry) (r : Nat) : Bool :=
  (e.first == 0 && e.last == 0xFFFF) || (decide (e.first ≤ r) && decide (r ≤ e.last))

/-- A tile after a CONF entry, none where the register's rule refuses the value, or the weight or floor is bad (R443). -/
def applyConf (r : Nat) (e : ConfEntry) (t : Tile) : Option Tile :=
  let v := e.value
  match e.key with
  | 0x01 => some { t with ctrl := { t.ctrl with caps := v } }
  | 0x02 => if v = 0 then none else some t
  | 0x03 =>
    some ((maskLamps (v &&& maskBits 0 16)).foldl (fun t l =>
      modLamp l (fun x => { x with group := BitVec.ofNat 2 (fld v 16 2) }) t) t)
  | 0x04 =>
    let f := fld v 0 9
    let c := fld v 16 9
    let floors := vset t.act.floors (fld v 32 2) f
    if c < f ∨ 256 < c ∨ 256 < sumN floors.toList then none
    else some { t with act := { t.act with floors := floors, ceils := vset t.act.ceils (fld v 32 2) c } }
  | 0x05 => crPut r t 0x020 v
  | 0x06 => crPut r t 0x010 v
  | 0x07 => crPut r t 0x013 v
  | 0x08 => crPut r t 0x021 v
  | 0x09 => crPut r t 0x028 v
  | 0x0A => crPut r t 0x029 v
  | 0x0B => crPut r t 0x02A v
  | 0x0C => crPut r t 0x02B v
  | 0x0D => crPut r t 0x02C v
  | 0x0E => crPut r t 0x015 v
  | 0x0F => crPut r t 0x01C v
  | 0x10 => crPut r t 0x01D v
  | _ => some t

/-- A tile after the CONF entries that apply to it, in order; refused ones leave it as it is. -/
def confTile (r : Nat) (es : List ConfEntry) (t : Tile) : Tile :=
  (es.filter (fun e => e.on r)).foldl (fun t e => (applyConf r e t).getD t) t

/-- Whether no CONF entry of a tile is refused. -/
def confPasses (r : Nat) (es : List ConfEntry) (t : Tile) : Bool :=
  ((es.filter (fun e => e.on r)).foldl (fun x e => x.bind (applyConf r e)) (some t)).isSome

/-- The lens arbiter weight of a tile (R321, R442). -/
def weightOf (r : Nat) (es : List ConfEntry) : Nat :=
  (es.filter (fun e => e.key == 2 && e.on r)).foldl (fun _ e => fld e.value 0 4) 1

/-- The blocks that a saved set of lamps holds (R73, R100). -/
def savedBlocks (x : LampSet) : List Nat :=
  x.lamps.toList.flatMap (fun l => l.ptrs.toList.filterMap (fun p => match p with
    | some w => if w.spilled then none else some w.block
    | none => none)) ++ x.handoff.toList.flatMap (fun q => q.map Prod.fst)

/-- The launch state of a tile (R71, R198, R208): what a parked job keeps there stays (R451, R454), and SRAM and workspace
store keep their contents. -/
def launchTile (old : Tile) (dup : Duplex) : Tile :=
  let keep := old.parked.isSome
  let saved := if keep then old.saved else LampSet.reset
  { Tile.reset with
    ctrl := Ctrl.reset (dup != .solo), sram := old.sram, ws := old.ws, saved := saved,
    free := (List.range 256).filter (fun b => !(savedBlocks saved).contains b),
    parked := old.parked, duplex := dup, cmdStamp := old.cmdStamp,
    bankClk := old.bankClk, banksUsed := old.banksUsed,
    msg := { old.msg with quiesced := false } }

/-! ## Checks (R443) -/

/-- The placed tiles of an image, in the order of PLACE. -/
def placedOf (m : Image) : List Placed :=
  m.place.flatMap (fun e => upTo (e.last + 1 - e.first) (fun i =>
    ⟨e.first + i, e.role, e.duplex, weightOf (e.first + i) m.conf⟩))

/-- The tiles that placements occupy, pair followers included (R221). -/
def occupied (ps : List Placed) : List Nat :=
  ps.flatMap (fun p => if p.duplex then [p.rank, p.rank + 1] else [p.rank])

/-- The boot tree of an image (R443). -/
def bootOf (m : Image) : List (Nat × List Nat) := m.boot.getD [(lsRank, (placedOf m).map (fun p => p.rank))]

/-- The units that a boot tree reaches from some units, with fuel for its depth. -/
def bootReach (b : List (Nat × List Nat)) : Nat → List Nat → List Nat
  | 0, xs => xs
  | f + 1, xs => xs ++ bootReach b f ((b.filter (fun e => xs.contains e.1)).flatMap (fun e => e.2))

/-- Whether a boot tree is a tree rooted at the lightship that names each placed rank once as a child (R443). -/
def bootOk (ranks : List Nat) (b : List (Nat × List Nat)) : Bool :=
  let kids := b.flatMap (fun e => e.2)
  distinctN kids && kids.length == ranks.length && kids.all (fun k => ranks.contains k)
    && b.all (fun e => e.1 == lsRank || ranks.contains e.1)
    && (let up := bootReach b (b.length + 1) [lsRank]
        ranks.all (fun r => up.contains r))

/-- Whether a placed tile passes (R443): in the partition, not excluded, a pair on an even x. -/
def placedOk (s : State) (part : List Nat) (p : Placed) : Bool :=
  part.contains p.rank && !excluded s (.tile p.rank)
    && (!p.duplex || (p.rank % 2 == 0 && !excluded s (.tile (p.rank + 1))))

/-- The launch state of a placed tile before its CONF entries. -/
def bareTile (p : Placed) : Tile := launchTile Tile.reset (if p.duplex then .leader else .solo)

/-- Whether a role reaches the SRAMLIM of a tile placed in it (R443). -/
def roleTooLong (m : Image) (p : Placed) : Bool :=
  decide (fld (confTile p.rank m.conf (bareTile p)).ctrl.sramlim 12 9 * 4096 < ((SMap.getD m.roles p.role (0, [])).2).length)

/-- The requests for allotments: stack and size in units of 16 KiB, the last entry of a stack in force (R442). -/
def allotAsk (es : List ConfEntry) : List (Nat × Nat) :=
  (List.range 8).filterMap (fun m =>
    match ((es.filter (fun e => e.key == 0x11 && fld e.value 32 3 == m)).getLast?).map (fun e => fld e.value 0 22) with
    | some n => if n = 0 then none else some (m, n)
    | none => none)

end Sys2Proof.Machine
end

