-- ==== Sys2Proof/Machine/LensMath.lean ====
section
/-! DEFINITION. Lens arithmetic: operand elements under a declared precision (R40 to R45, R62, R63), group sums and
accumulation (R64, R65), scales (R317), ranked lists (R330 to R334). -/

namespace Sys2Proof.Machine

/-! ## Operands -/

/-- The planes a format has, 0 where a command does not accept it (R316). -/
def lensW (code : Nat) : Nat := match planeFmt code with | some (w, _, _) => w | none => 0

/-- The significand that planes 0 to P - 1 give, the rest zero (R41, R62). -/
def planeSig (m : Mem) (c : KCmd) (w i k : Nat) : Nat :=
  sumN (upTo (Nat.min (lmP c) w) (fun q =>
    (Mem.read m (lmApl c + q * (lmM c * lmK c / 8) + i * (lmK c / 8) + k / 8)).toNat / 2 ^ (k % 8) % 2 * 2 ^ (w - 1 - q)))

/-- Element (i, k) of A under the declared precision (R62, R63). -/
def elemA (m : Mem) (c : KCmd) (i k : Nat) : FVal :=
  match planeFmt (lmFa c), fmtCode (lmFa c) with
  | some (w, sw, _), some ty =>
    let sig := planeSig m c w i k
    let side := if sw = 0 then 0 else Mem.load m (lmSide c + (i * lmK c + k) * sw) sw
    ty.decode false (fromPlanes ty sw sig side)
  | _, _ => .fin false 0 0

/-- Stored element (r, j) of B (R341). -/
def storedB (m : Mem) (c : KCmd) (r j : Nat) : FVal :=
  match fmtCode (lmFb c) with
  | some ty => ty.decode false (itemAt m (lmBel c) ty.width (r * lmN c + j))
  | none => .fin false 0 0

/-- The metadata entry of group `q` and column `j` as bits (R44). -/
def metaBits (m : Mem) (c : KCmd) (q j : Nat) : Nat :=
  Mem.load m (lmAux c + (q * lmN c + j) * metaBytes (lmNk c)) (metaBytes (lmNk c))

/-- Index `e` of a metadata entry. -/
def metaIdx (bits e : Nat) : Nat := bits / 64 ^ e % 64

/-- Whether a metadata entry is malformed (R45). -/
def metaBad (nk bits : Nat) : Bool :=
  decide (64 ^ nk ≤ bits) || (List.range nk).any (fun e =>
    decide (47 < metaIdx bits e) || (decide (e + 1 < nk) && decide (metaIdx bits (e + 1) ≤ metaIdx bits e)))

/-- Element (k, j) of B at a dense position (R43, R344). -/
def elemB (m : Mem) (c : KCmd) (k j : Nat) : FVal :=
  if lmSparse c then
    let bits := metaBits m c (k / 48) j
    match (List.range (lmNk c)).find? (fun e => metaIdx bits e == k % 48) with
    | some e => storedB m c (k / 48 * lmNk c + e) j
    | none => .fin false 0 0
  else storedB m c k j

/-- A scale of an array: item `i` as mant times 2^exp, none for NaN; 1 where scales are off (R317). -/
def scaleAt (m : Mem) (w : W64) (i : Nat) : Option (Nat × Int) :=
  if !bit w 63 then some (1, 0)
  else if bit w 62 then sc10Val (e8m0ToSc10 (Mem.load m (fld w 0 21 + i) 1))
  else sc10Val (Mem.load m (fld w 0 21 + 2 * i) 2)

/-! ## Group sums (R64, R65) -/

/-- A group sum. -/
inductive GSum where
  | nan
  | inf (sign : Bool)
  | zero
  | fin (v : Int) (exp : Int)
  deriving DecidableEq, Repr

/-- An exact product. -/
def prod (a b : FVal) : FVal :=
  if a.isNan || b.isNan then .nan false 0 23 false
  else if (a.isZero && b.isInf) || (a.isInf && b.isZero) then .nan false 0 23 false
  else if a.isInf || b.isInf then .inf (xor a.sign b.sign)
  else match a, b with
    | .fin s m e, .fin s' m' e' => .fin (xor s s') (m * m') (e + e')
    | _, _ => .fin false 0 0

/-- A product truncated to a multiple of 2^q, in units of it. -/
def truncTo (q : Int) (p : FVal) : Int :=
  match p with
  | .fin s m e =>
    let n := if q ≤ e then m * 2 ^ (e - q).toNat else m / 2 ^ (q - e).toNat
    if s then -(n : Int) else n
  | _ => 0

/-- GroupSum of R64 on the 32 products. -/
def groupSum (ps : List FVal) : GSum :=
  let infs := ps.filter (fun p => p.isInf)
  if ps.any (fun p => p.isNan) || (infs.any (fun p => p.sign) && infs.any (fun p => !p.sign)) then .nan
  else match infs with
    | p :: _ => .inf p.sign
    | [] =>
      let tops := ps.filterMap (fun p => match p with
        | .fin _ m e => if m = 0 then none else some (floorLog2 m e)
        | _ => none)
      match tops with
      | [] => .zero
      | t :: ts =>
        let q := ts.foldl max t - 60
        let v := (ps.map (truncTo q)).foldl (· + ·) 0
        if v = 0 then .zero else .fin v q

/-- Accumulate of R64. -/
def accumulate (acc : W32) (g : GSum) (sa sb : Option (Nat × Int)) : W32 :=
  let a := fp32.decode acc.toNat
  let nan : W32 := 0x7FC00000
  match g, sa, sb with
  | .nan, _, _ => nan
  | _, none, _ => nan
  | _, _, none => nan
  | .zero, _, _ => if a.isNan then nan else acc
  | .inf s, _, _ =>
    if a.isNan || (a.isInf && a.sign != s) then nan else BitVec.ofNat 32 (fp32.signBit s + fp32.infMag)
  | .fin v e, some (m1, e1), some (m2, e2) =>
    match a with
    | .nan .. => nan
    | .inf _ => acc
    | .fin s m x =>
      BitVec.ofNat 32 (fp32.addFin .rne s m x (decide (v < 0)) (v.natAbs * m1 * m2) (e + e1 + e2)).1

/-- An integer value of an s4 or s8 element. -/
def intVal (v : FVal) : Int := match v with | .fin s m _ => if s then -(m : Int) else m | _ => 0

/-- Saturation to 32 bits: the word, and whether it saturated (R65). -/
def sat32 (x : Int) : W32 × Bool :=
  if x < -(2 ^ 31 : Int) then (0x80000000, true)
  else if (2 ^ 31 : Int) ≤ x then (0x7FFFFFFF, true)
  else (BitVec.ofInt 32 x, false)

/-- Whether a command takes the INT32 path (R316). -/
def intPath (c : KCmd) : Bool :=
  (lmFa c == 3 || lmFa c == 4) && (lmFb c == 3 || lmFb c == 4) && !bit c.scla 63 && !bit c.sclb 63 && !lmRank c

/-- Add group `g` of 32 dense positions to the word of element (i, j) (R343): the word, and whether it saturated. -/
def addGroup (m : Mem) (c : KCmd) (i j : Nat) (w : W32) (g : Nat) : W32 × Bool :=
  let el (x : Nat) : FVal × FVal := (elemA m c i (32 * g + x), elemB m c (32 * g + x) j)
  if intPath c then
    sat32 (w.toInt + ((upTo 32 el).map (fun p => intVal p.1 * intVal p.2)).foldl (· + ·) 0)
  else
    (accumulate w (groupSum ((upTo 32 el).map (fun p => prod p.1 p.2)))
      (scaleAt m c.scla (i * (lmK c / 32) + g)) (scaleAt m c.sclb (g * lmN c + j)), false)

/-- Add several groups in rising order. -/
def addGroups (m : Mem) (c : KCmd) (i j : Nat) (w : W32) (gs : List Nat) : W32 × Bool :=
  gs.foldl (fun a g => let (x, o) := addGroup m c i j a.1 g; (x, a.2 || o)) (w, false)

/-! ## Block steps (R314) -/

/-- Groups of 48 in a K step of LMMS. -/
def sparseG (c : KCmd) : Nat := Nat.min 4 (64 / lmNk c)
/-- Dense K positions in a K step. -/
def stepK (c : KCmd) : Nat := if lmSparse c then 48 * sparseG c else 64
/-- K steps. -/
def lmKs (c : KCmd) : Nat := lmK c / stepK c
/-- Row blocks and column blocks. -/
def lmMb (c : KCmd) : Nat := ceilDiv (lmM c) 64
def lmNb (c : KCmd) : Nat := ceilDiv (lmN c) 64
/-- All block steps. -/
def lmSteps (c : KCmd) : Nat := lmMb c * lmNb c * lmKs c

/-- Row block, column block and K step of a block step. -/
def stepAt (c : KCmd) (n : Nat) : Nat × Nat × Nat := (n / (lmNb c * lmKs c), n / lmKs c % lmNb c, n % lmKs c)

/-- The indices of a block of 64 below a bound. -/
def blockIdx (b n : Nat) : List Nat := (upTo 64 (fun x => 64 * b + x)).filter (fun x => decide (x < n))

/-- The groups of 32 of a K step. -/
def stepGroups (c : KCmd) (ks : Nat) : List Nat := upTo (stepK c / 32) (fun g => ks * (stepK c / 32) + g)

/-- Whether the metadata of a step is malformed (R45). -/
def metaStepBad (m : Mem) (c : KCmd) (nb ks : Nat) : Bool :=
  lmSparse c && (upTo (sparseG c) (fun x => ks * sparseG c + x)).any (fun q =>
    (blockIdx nb (lmN c)).any (fun j => metaBad (lmNk c) (metaBits m c q j)))

/-- The row id and word of output element (i, j) (R325). -/
def outRow (c : KCmd) (i j : Nat) : Nat :=
  (if lmRank c then lmB0 c + i / 32 else lmB0 c + i / 32 * lmBp c + j / 64) * 32 + i % 32
def outWord (j : Nat) : Nat := j % 64

/-- The banks a compute command updates (R325). -/
def lmBanks (c : KCmd) : List Nat :=
  (List.range (ceilDiv (lmM c) 32)).flatMap (fun mi =>
    if lmRank c then [lmB0 c + mi] else (List.range (lmNb c)).map (fun nj => lmB0 c + mi * lmBp c + nj))

/-- The row block of a row id in a command's output, none outside it. -/
def rowBlockOf (c : KCmd) (row : Nat) : Option Nat :=
  ((List.range (ceilDiv (lmM c) 32)).find? (fun mi =>
    if lmRank c then lmB0 c + mi == row / 32
    else decide (lmB0 c + mi * lmBp c ≤ row / 32 ∧ row / 32 < lmB0 c + mi * lmBp c + lmNb c))).map (fun mi => mi / 2)

/-! ## Ranked lists (R330, R331) -/

/-- The entries of a ranked-list row. -/
def listEntries (ws : List W32) : List (W32 × W32) :=
  upTo (bitsN (ws.getD 63 0).toNat 0 6) (fun e => (ws.getD (2 * e) 0, ws.getD (2 * e + 1) 0))

/-- The 64 words of a ranked-list row (R330). -/
def listRow (k : Nat) (es : List (W32 × W32)) : List W32 :=
  let full := decide (es.length = k)
  es.flatMap (fun p => [p.1, p.2])
    ++ (List.replicate (31 - es.length) [0xFF800000#32, 0xFFFFFFFF#32]).flatten
    ++ [if full then (es.getD (k - 1) (0, 0)).1 else 0xFF800000, BitVec.ofNat 32 (es.length + k * 64 + ofBool full * 4096)]

/-- Insert of R331. -/
def listInsert (k : Nat) (ws : List W32) (v x : W32) : List W32 :=
  let es := listEntries ws
  if (fp32.decode v.toNat).isNan then ws
  else if k ≤ es.length ∧ !pairBefore (v, x) (es.getD (k - 1) (0, 0)) then ws
  else listRow k ((insertBy pairBefore (v, x) (if k ≤ es.length then es.take (k - 1) else es)))

end Sys2Proof.Machine
end

