-- ==== Sys2Proof/Machine/Lens.lean ====
section
/-! DEFINITION. The lens: issue of its commands (R339 to R356), arbiter, slots and block steps (R314 to R323, R343 to R345),
the bank sequencer (R323, R327 to R329, R346 to R355), completion (R335 to R337). -/

namespace Sys2Proof.Machine

/-! ## Completion (R335 to R337) -/

/-- The lens status word (R335). -/
def lensWord (skipped done : Nat) (overflow : Bool) (status : Nat) : W64 :=
  BitVec.ofNat 64 (skipped % 2 ^ 24 * 2 ^ 32 + done % 2 ^ 24 * 2 ^ 8 + ofBool overflow * 16 + status)

/-- Complete a lens command with its counts; reason 0 is OK (R335 to R337). -/
def completeLens (c : KCmd) (reason where_ skipped done : Nat) (overflow : Bool) (t : Tile) : Tile :=
  let t := subTok c.station c.job c.tout.toNat t
  let w := lensWord skipped done overflow (if reason = 0 then 0 else 15)
  let t := if c.tout = 0 then t
    else cmdCtx c (fun e => { e with lensStatus := vset e.lensStatus c.tout.toNat w }) t
  if reason = 0 then t
  else setEvent 33 (cmdCtx c (fun e =>
    { e with lensFault := faultWord e.lensFault c.tout.toNat c.op.toNat reason where_ }) t)

/-! ## Issue (R211, R340) -/

/-- Whether the lens queue of a tile, or its station entry, has room. -/
def lensRoomT (t : Tile) (station : Bool) : Bool := if station then t.stLens.isNone else decide (t.eng.lensQ.length < 4)

/-- Put a command in the lens queue. -/
def pushLens (c : KCmd) (t : Tile) : Tile :=
  if c.station then { t with stLens := some c } else { t with eng := { t.eng with lensQ := t.eng.lensQ ++ [c] } }

/-- A command that fails a check at issue completes FAULT; any other enters the queue; the checkpoint closes (R222). -/
def enterLens (c : KCmd) (s : State) : State :=
  modCur s (fun t =>
    let t := closeCkpt t
    let r := lensIssueReason t c
    if r ≠ 0 then completeLens c r 0 0 0 false t else pushLens c t)

/-- The operation and operands of a KC lens instruction. -/
def lensParts : Instr → Option (BitVec 7 × Tok × BitVec 5 × Tok × Tok)
  | .lmm t k m n => some (0x70, t, k, m, n)
  | .lmms t k m n => some (0x71, t, k, m, n)
  | .lrank t k m n => some (0x72, t, k, m, n)
  | .accLoad t k m n => some (0x73, t, k, m, n)
  | .accClr t k m n => some (0x74, t, k, m, n)
  | .accMerge t k m n => some (0x75, t, k, m, n)
  | .drain t k m n => some (0x76, t, k, m, n)
  | .accFree t k m n => some (0x77, t, k, m, n)
  | .accOwn t k m n => some (0x78, t, k, m, n)
  | _ => none

/-- The issue of a KC lens instruction, none while it waits. -/
def tryLensInstr (i : Instr) (s : State) : Option State :=
  match lensParts i with
  | some (op, t, k, m, n) => issueKC i op 0 t k m n (fun c s => lensRoomT (cur s) c.station) enterLens s
  | none => some s

def issueLens (i : Instr) (s : State) : Out := .next (orWait i s (tryLensInstr i s))

def execLmm (t : Tok) (k : BitVec 5) (m n : Tok) (s : State) : Out := issueLens (.lmm t k m n) s
def execLmms (t : Tok) (k : BitVec 5) (m n : Tok) (s : State) : Out := issueLens (.lmms t k m n) s
def execLrank (t : Tok) (k : BitVec 5) (m n : Tok) (s : State) : Out := issueLens (.lrank t k m n) s
def execAccLoad (t : Tok) (k : BitVec 5) (m n : Tok) (s : State) : Out := issueLens (.accLoad t k m n) s
def execAccClr (t : Tok) (k : BitVec 5) (m n : Tok) (s : State) : Out := issueLens (.accClr t k m n) s
def execAccMerge (t : Tok) (k : BitVec 5) (m n : Tok) (s : State) : Out := issueLens (.accMerge t k m n) s
def execDrain (t : Tok) (k : BitVec 5) (m n : Tok) (s : State) : Out := issueLens (.drain t k m n) s
def execAccFree (t : Tok) (k : BitVec 5) (m n : Tok) (s : State) : Out := issueLens (.accFree t k m n) s
def execAccOwn (t : Tok) (k : BitVec 5) (m n : Tok) (s : State) : Out := issueLens (.accOwn t k m n) s

/-! ## ACC.ALLOC (R346, R348, R453) -/

/-- The operand of ACC.ALLOC passes its rule (R346, R453). -/
def allocOk (station : Bool) (w : W64) : Bool :=
  let n := fld w 0 8
  let k := fld w 9 5
  w &&& ~~~ (maskBits 0 14 ||| (if station then maskBits 16 8 else 0)) == 0
    && decide (1 ≤ n ∧ n ≤ 128) && (if bit w 8 then 1 ≤ k else k == 0)

/-- The bank at which ACC.ALLOC finds `n` free ones: the lowest, or exactly the base that the station fixes. -/
def allocSearch (l : Lens) (n : Nat) (fixed : Option Nat) : Option Nat :=
  (List.range 129).find? (fun b => decide (b + n ≤ 128) && (fixed.isNone || fixed == some b)
    && (List.range n).all (fun j => (SMap.getD l.banks (b + j) Bank.reset).st == .free))

/-- Set banks of a lens. -/
def putBanks (c : Nat) (bs : List Nat) (f : Bank → Bank) (s : State) : State :=
  modLens s c (fun l => { l with
    banks := bs.foldl (fun m b => SMap.insert m b (f (SMap.getD m b Bank.reset))) l.banks })

/-- ACC.ALLOC (R346): none while the lens queue is full. -/
def tryAccAlloc (d a : BitVec 5) (s : State) : Option State :=
  let w := kreg s a
  let t := cur s
  let r := s.focus.val
  if !allocOk (atStation t) w then some (trapIllegal w s)
  else if !lensRoomT t (atStation t) then none
  else
    let s := modCur s closeCkpt
    let n := fld w 0 8
    match allocSearch (lensOf s (clusterOf r)) n (if bit w 23 then some (fld w 16 7) else none) with
    | none => some (retireReg s d (-1) 2)
    | some b =>
      let c : KCmd := { kcmdOf s 0x79 0 0 0 0 0 with
        d0 := BitVec.ofNat 64 (b + n * 2 ^ 8 + ofBool (bit w 8) * 2 ^ 16 + fld w 9 5 * 2 ^ 17) , tin2 := 0 }
      let s := putBanks (clusterOf r) (upTo n (fun j => b + j)) (fun _ => ⟨.reserved, posOf r, 0, none⟩) s
      some (retireReg (modCur s (fun t =>
        pushLens c { t with cmdStamp := t.cmdStamp + 1, allocNew := some c.stamp })) d (BitVec.ofNat 64 b) 2)

def execAccAlloc (d a : BitVec 5) (s : State) : Out := .next (orWait (.accAlloc d a) s (tryAccAlloc d a s))

/-! ## LQUERY (R356) -/

def execLqueryStatus (d a : BitVec 5) (s : State) : Out :=
  let n := fld (kreg s a) 0 6
  .next (retireReg s d (if n = 0 then 0 else vget (cur s).eng.lensStatus n 0) 2)

def execLqueryFault (d a : BitVec 5) (s : State) : Out :=
  let w := (cur s).eng.lensFault
  let _ := a
  .next (retireReg (modCur s (fun t => { t with eng := { t.eng with lensFault := w &&& ~~~ maskBits 62 2 } })) d w 2)

/-- The state word of a bank (R356). -/
def bankWord (l : Lens) (b : Nat) : W64 :=
  let x := SMap.getD l.banks b Bank.reset
  BitVec.ofNat 64 (ofBool (l.held.any (fun h => h.1 / 32 == b)) * 2 ^ 13
    + (if x.st = .rank then x.k else 0) * 2 ^ 8 + ofBool x.owner.isSome * 2 ^ 7 + (x.owner.getD 0).toNat * 2 ^ 5
    + x.tile % 8 * 2 ^ 2 + (match x.st with | .free => 0 | .reserved => 1 | .sum => 2 | .rank => 3))

def execLqueryBank (d a : BitVec 5) (s : State) : Out :=
  .next (retireReg s d (bankWord (lensOf s (clusterOf s.focus.val)) (fld (kreg s a) 0 7)) 2)

/-! ## Queues and order (R210, R321, R323, R452) -/

/-- The head of a tile's lens queue that may start: the station's entry before the job's (R452, R455). An ACC.ALLOC issued in this
clk is there from the next (R499). -/
def lensHead (t : Tile) : Option KCmd :=
  (match t.stLens with
   | some c => if mayStart t true then some c else none
   | none => if mayStart t false then t.eng.lensQ.head? else none).filter (fun c => t.allocNew != some c.stamp)

/-- Take the head out of the queue. -/
def popLens (t : Tile) : Tile :=
  match t.stLens with
  | some _ => { t with stLens := none }
  | none => { t with eng := { t.eng with lensQ := t.eng.lensQ.drop 1 } }

def isCompute (c : KCmd) : Bool := c.op == 0x70 || c.op == 0x71 || c.op == 0x72

/-- The banks that a bank command names. -/
def cmdBanks (c : KCmd) : List Nat :=
  match c.op.toNat with
  | 0x77 | 0x78 => upTo (fld c.d0 8 8) (fun j => fld c.d0 0 7 + j)
  | 0x79 => upTo (fld c.d0 8 8) (fun j => fld c.d0 0 7 + j)
  | 0x70 | 0x71 | 0x72 => lmBanks c
  | _ =>
    if acRows c = 0 then []
    else (List.range 128).filter (fun b => decide (acFirst c / 32 ≤ b ∧ b ≤ (acFirst c + acRows c - 1) / 32))

def meetBanks (a b : KCmd) : Bool := (cmdBanks a).any (fun x => (cmdBanks b).contains x)

/-- Whether a DRAIN has a row of some banks that it has not yet released. -/
def drainHolds (a : BankCmd) (bs : List Nat) : Bool :=
  a.cmd.op == 0x76 && bs.any (fun b =>
    a.out.any (fun x => x / 32 == b)
      || (List.range 32).any (fun i =>
        decide (acFirst a.cmd + a.pos ≤ b * 32 + i ∧ b * 32 + i < acFirst a.cmd + acRows a.cmd)))

/-- Whether the head of a tile's queue is a ready compute command (R321). -/
def lensReady (s : State) (c pos : Nat) : Option KCmd :=
  let t := tileOf s (tileAt c pos)
  let l := lensOf s c
  match lensHead t with
  | some k =>
    if isCompute k && inputsSet t k && !(l.held.any (fun h => (lmBanks k).contains (h.1 / 32)))
      && !(l.accepted.any (fun a => a.tile == pos && drainHolds a (lmBanks k))) then some k else none
  | none => none

/-! ## Grant, load, compute (R319 to R322, R342) -/

/-- Grant of R321 from a pointer on, with the visits left as fuel: the command with its position, and the lens. -/
def grantVisits (s : State) (c : Nat) : Nat → Lens → Option (KCmd × Nat) × Lens
  | 0, l => (none, l)
  | f + 1, l =>
    match lensReady s c l.ptr, vget l.credits l.ptr 0 with
    | some k, n + 1 => (some (k, l.ptr), { l with credits := vset l.credits l.ptr n })
    | _, _ =>
      grantVisits s c f { l with credits := vset l.credits l.ptr (vget l.weights l.ptr 0), ptr := (l.ptr + 1) % 8 }

/-- Whether a later ACC.ALLOC of the same tile has allocated a bank: a check goes by what the earlier commands leave (R323). -/
def allocatedAfter (l : Lens) (a : BankCmd) (b : Nat) : Bool :=
  l.accepted.any (fun d => d.tile == a.tile && d.cmd.op == 0x79 && decide (a.cmd.stamp < d.cmd.stamp) && (cmdBanks d.cmd).contains b)

/-- The banks as the accepted ACC.FREE commands of a tile will leave them, one that will itself fail changing nothing (R323,
R354). -/
def banksAfter (l : Lens) (pos : Nat) : SMap Bank :=
  (l.accepted.filter (fun a => a.tile == pos && a.cmd.op == 0x77)).foldl (fun m a =>
    let bs := (cmdBanks a.cmd).drop a.pos
    if bs.all (fun b => bankMine (SMap.getD m b Bank.reset) pos && !allocatedAfter l a b) then
      bs.foldl (fun m b => SMap.insert m b Bank.reset) m
    else m) l.banks

/-- The reason of a compute command that fails at its grant (R342), 0 for none. -/
def grantReason (l : Lens) (pos : Nat) (c : KCmd) : Nat :=
  if lensW (lmFa c) = 0 ∨ lensW (lmFb c) = 0 ∨ (lmSideW c = 0 ∧ lmSide c ≠ 0) then 3
  else if lmP c = 0 ∨ lensW (lmFa c) < lmP c then 9
  else if (lmBanks c).all (fun b =>
    let x := SMap.getD (banksAfter l pos) b Bank.reset
    x.st == (if lmRank c then .rank else .sum) && x.tile == pos) then 0 else 7

def otherSlot (i : Fin 2) : Fin 2 := if i = 0 then 1 else 0
def slotOf (l : Lens) (i : Fin 2) : Option LensSlot := l.slots[i]
def setSlot (i : Fin 2) (x : Option LensSlot) (l : Lens) : Lens := { l with slots := l.slots.set i x }

/-- A slot that can be granted (R319, R321). -/
def openSlot (now : Nat) (l : Lens) : Option (Fin 2) :=
  (List.finRange 2).find? (fun i => (slotOf l i).isNone && decide (vget l.freeAt i.val 0 ≤ now))

/-- The run of the arbiter for a slot in this clk is over (R321). -/
def ranFor (now : Nat) (i : Fin 2) (l : Lens) : Lens := { l with freeAt := vset l.freeAt i.val (now + 1) }

/-- The run of the arbiter for a free slot, one a clk (R321): a command that fails its checks at start completes FAULT. -/
def tryGrantLens (c : LensId) (s : State) : Option State :=
  let l := lensOf s c.val
  match openSlot s.cycle l with
  | none => none
  | some i =>
    match grantVisits s c.val 8 l with
    | (none, l') => if l' = l then none else some (setLens s c.val (ranFor s.cycle i l'))
    | (some (k, pos), l') =>
      let r := tileAt c.val pos
      let s := modTile (setLens s c.val l') r popLens
      let why := grantReason l' pos k
      if why ≠ 0 then
        some (modTile (modLens s c.val (ranFor s.cycle i)) r (completeLens k why 0 0 0 false))
      else
        let busy := match slotOf l' (otherSlot i) with
          | some x => x.loadEnd.isNone
          | none => false
        let slot : LensSlot :=
          { tile := pos, cmd := k, loadFrom := if busy then none else some s.cycle, loadEnd := none,
            computeFrom := none, step := 0, stepEnd := none, done := 0, skipped := 0, overflow := false, cap := [],
            early := [], todo := (lmItems k).flatMap (fun p => spanGranules p.2.1 p.2.2), wait := [] }
        some (modLens s c.val (setSlot i (some slot)))

def execArbiterGrant (c : LensId) (s : State) : Out := .next (orStay s (tryGrantLens c s))

/-- The clk a load takes (R319). -/
def loadClk (c : KCmd) : Nat := ceilDiv (lmBuf c false + lmBuf c true) 1024

/-- Whether the operands of a command meet a granule with an uncorrectable error: its data is never delivered (R224). -/
def loadsBad (t : Tile) (c : KCmd) : Bool :=
  t.bad.any (fun a => (touchedRanges t 0 c).any (fun x => decide (a < x.lo + x.n) && decide (x.lo < a + 16)))

/-- Whether a slot is loading in this clk. -/
def LensSlot.isLoading (now : Nat) (x : LensSlot) : Bool :=
  x.loadEnd.isNone && (match x.loadFrom with | some n => decide (n ≤ now) | none => false)

/-- A load reads an operand granule ahead of its end, once (R213, R320). -/
def lensReadAt (c : Nat) (i : Fin 2) (a : Nat) (s : State) : State :=
  modLens s c (fun l => setSlot i ((slotOf l i).map (fun x =>
    if x.isLoading s.cycle && a % 16 == 0 && (SMap.find x.early a).isNone && !(tileOf s (tileAt c x.tile)).bad.contains a then
      { x with early := SMap.insert x.early a (Mem.granule (tileOf s (tileAt c x.tile)).sram a) }
    else x)) l)

/-- What a load has read: SRAM, with the granules read before its end as they were then (R213, R320). -/
def loadedBytes (t : Tile) (x : LensSlot) : Mem := x.early.foldl (fun m p => Mem.writeN m p.1 (leBytes 16 p.2.toNat)) t.sram

/-- LOAD_COMPLETE (R319, R320): the operands are there, and the other granted slot begins its load. -/
def tryLoadComplete (c : LensId) (i : Fin 2) (s : State) : Option State :=
  let l := lensOf s c.val
  match slotOf l i with
  | some x =>
    match x.loadFrom, x.loadEnd with
    | some f, none =>
      if decide (s.cycle + 1 < f + loadClk x.cmd) || loadsBad (tileOf s (tileAt c.val x.tile)) x.cmd then none
      else
        let other := slotOf l (otherSlot i)
        let computing := match other with | some y => y.stepEnd.isSome | none => false
        let x := { x with loadEnd := some (s.cycle + 1), cap := loadedBytes (tileOf s (tileAt c.val x.tile)) x,
                          computeFrom := if computing then none else some (s.cycle + 1) }
        let other := other.map (fun y =>
          if y.loadFrom.isNone then { y with loadFrom := some (s.cycle + 1) } else y)
        some (setLens s c.val (setSlot i (some x) (setSlot (otherSlot i) other l)))
    | _, _ => none
  | none => none

def execLoadComplete (c : LensId) (i : Fin 2) (s : State) : Out := .next (orStay s (tryLoadComplete c i s))

/-- The end of a command in a slot (R319, R336): the slot is free in the next clk, and a loaded command of the other slot
computes 8 clk after it. -/
def endSlot (c : Nat) (i : Fin 2) (x : LensSlot) (reason next : Nat) (s : State) : State :=
  let other := (slotOf (lensOf s c) (otherSlot i)).map (fun y =>
    if y.loadEnd.isSome && y.computeFrom.isNone then { y with computeFrom := some (next + 8) } else y)
  modTile (modLens s c (fun l =>
      { setSlot i none (setSlot (otherSlot i) other l) with freeAt := vset l.freeAt i.val next })) (tileAt c x.tile)
    (completeLens x.cmd reason (if reason = 0 then 0 else x.step) x.skipped x.done x.overflow)

/-- Whether the pair of row block and column block is skipped (R333). -/
def skipPair (s : State) (c : Nat) (x : LensSlot) (mb nb : Nat) : Bool :=
  let b := fp32.decode (Mem.load x.cap (lmAux x.cmd + 4 * nb) 4)
  lmRank x.cmd && lmBnd x.cmd && !b.isNan && (blockIdx mb (lmM x.cmd)).all (fun i =>
    let row := outRow x.cmd i 0
    (accWord s c row 63).getLsbD 12 && ltVal false b (fp32.decode (accWord s c row 62).toNat))

/-- The last clk of a block step whose first clk would be `next`: it takes P of the clk in which the lens duty lets a lens step, d of
every 16 (R314, R466; log entry 39). -/
def stepLast (s : State) (c : KCmd) (next : Nat) : Nat :=
  ceilDiv (16 * (next * s.ls.duty / 16 + lmP c)) s.ls.duty - 1

/-- Go to the next block step, whose first clk would be `next` (R314, R333, R336), with fuel for skipped pairs. -/
def nextStep (c : Nat) (i : Fin 2) (next : Nat) : Nat → LensSlot → State → State
  | 0, x, s => endSlot c i x 0 next s
  | f + 1, x, s =>
    if lmSteps x.cmd ≤ x.step then endSlot c i x 0 next s
    else
      let (mb, nb, ks) := stepAt x.cmd x.step
      if metaStepBad x.cap x.cmd nb ks then endSlot c i x 10 next s
      else if ks == 0 && skipPair s c x mb nb then
        nextStep c i next f { x with step := x.step + lmKs x.cmd, skipped := x.skipped + lmKs x.cmd } s
      else modLens s c (setSlot i (some { x with stepEnd := some (stepLast s x.cmd next) }))

/-- Whether a loaded command's words are free of earlier commands of its tile (R323). -/
def slotTurn (l : Lens) (x : LensSlot) : Bool :=
  !(l.accepted.any (fun a => a.tile == x.tile && decide (a.cmd.stamp < x.cmd.stamp) && a.cmd.op != 0x76
      && meetBanks a.cmd x.cmd))
    && !(l.slots.toList.any (fun y => match y with
      | some y => y.tile == x.tile && decide (y.cmd.stamp < x.cmd.stamp) && meetBanks y.cmd x.cmd
      | none => false))

/-- COMPUTE_START (R319). -/
def tryComputeStart (c : LensId) (i : Fin 2) (s : State) : Option State :=
  let l := lensOf s c.val
  match slotOf l i with
  | some x =>
    let computing := match slotOf l (otherSlot i) with | some y => y.stepEnd.isSome | none => false
    match x.computeFrom, x.stepEnd with
    | some n, none =>
      if s.cycle < n || computing || !slotTurn l x then none
      else
        let s := modLens s c.val (fun l => setSlot (otherSlot i) ((slotOf l (otherSlot i)).map (fun y =>
          if y.loadEnd.isSome then { y with computeFrom := none } else y)) l)
        some (nextStep c.val i s.cycle (lmSteps x.cmd + 1) x s)
    | _, _ => none
  | none => none

def execComputeStart (c : LensId) (i : Fin 2) (s : State) : Out := .next (orStay s (tryComputeStart c i s))

/-- The updates of a SUM step (R343): the state, and whether a word saturated. -/
def applySum (c : Nat) (x : LensSlot) (s : State) : State × Bool :=
  let (mb, nb, ks) := stepAt x.cmd x.step
  ((blockIdx mb (lmM x.cmd)).flatMap (fun i => (blockIdx nb (lmN x.cmd)).map (fun j => (i, j)))).foldl (fun a p =>
    let row := outRow x.cmd p.1 p.2
    let (w, o) := addGroups x.cap x.cmd p.1 p.2 (accWord a.1 c row (outWord p.2)) (stepGroups x.cmd ks)
    (putAccWords c row (outWord p.2) [w] a.1, a.2 || o)) (s, false)

/-- LRANK_INSERT (R332): the scores of a pair enter the lists of its rows together. -/
def rankPair (c : Nat) (x : LensSlot) (s : State) : State :=
  let (mb, nb, _) := stepAt x.cmd x.step
  (blockIdx mb (lmM x.cmd)).foldl (fun s i =>
    let row := outRow x.cmd i 0
    let k := (bankOfRow s c row).k
    let ws := (blockIdx nb (lmN x.cmd)).foldl (fun ws j =>
      let v := (addGroups x.cap x.cmd i j 0 (upTo (lmK x.cmd / 32) id)).1
      listInsert k ws v (BitVec.ofNat 32 (lmCbase x.cmd + j))) (upTo 64 (accWord s c row))
    putAccWords c row 0 ws s) s

/-- Whether a block step reads a row with an uncorrectable error, which is never delivered (R224). -/
def stepBad (l : Lens) (x : LensSlot) : Bool :=
  let (mb, nb, _) := stepAt x.cmd x.step
  !l.bad.isEmpty && (blockIdx mb (lmM x.cmd)).any (fun i => (blockIdx nb (lmN x.cmd)).any (fun j => l.bad.contains (outRow x.cmd i j)))

/-- One block step has ended (R314, R343, R345). -/
def tryBlockStep (c : LensId) (s : State) : Option State :=
  let l := lensOf s c.val
  match (List.finRange 2).find? (fun i => match slotOf l i with
    | some x => (match x.stepEnd with | some e => decide (e ≤ s.cycle) && !stepBad l x | none => false)
    | none => false) with
  | none => none
  | some i =>
    match slotOf l i with
    | none => none
    | some x =>
      let (_, _, ks) := stepAt x.cmd x.step
      let (s, o) :=
        if lmRank x.cmd then (if ks + 1 = lmKs x.cmd then rankPair c.val x s else s, false) else applySum c.val x s
      let x := { x with step := x.step + 1, done := x.done + 1, overflow := x.overflow || o, stepEnd := none }
      some (nextStep c.val i (s.cycle + 1) (lmSteps x.cmd + 1) x (modLens s c.val (setSlot i (some x))))

def execBlockStep (c : LensId) (s : State) : Out := .next (orStay s (tryBlockStep c s))

/-! ## The bank sequencer (R323, R347, R353) -/

/-- BANK_COMMAND_ACCEPT (R323): an accepted allocation takes its banks (R347); a command that names no row or bank completes. -/
def tryAccept (c : LensId) (pos : Fin 8) (s : State) : Option State :=
  let r := tileAt c.val pos.val
  let t := tileOf s r
  match lensHead t with
  | some k =>
    if isCompute k || !inputsSet t k then none
    else
      let s := modTile s r popLens
      if k.op = 0x79 then
        let s := putBanks c.val (cmdBanks k) (fun _ =>
          ⟨if bit k.d0 16 then .rank else .sum, pos.val, fld k.d0 17 5, none⟩) s
        some (modLens s c.val (fun l => { l with
          accepted := l.accepted ++ [⟨pos.val, k, true, 0, 0, 0, [], none, none⟩] }))
      else if (cmdBanks k).isEmpty then some (modTile s r (completeLens k 0 0 0 0 false))
      else some (modLens s c.val (fun l => { l with
        accepted := l.accepted ++ [⟨pos.val, k, false, 0, 0, 0, [], none, none⟩] }))
  | none => none

def execBankCommandAccept (c : LensId) (pos : Fin 8) (s : State) : Out := .next (orStay s (tryAccept c pos s))

/-- The reason of a bank command that fails at its first service (R349, R354), 0 for none. -/
def bankReason (l : Lens) (a : BankCmd) : Nat :=
  if (cmdBanks a.cmd).all (fun b =>
    let x := SMap.getD l.banks b Bank.reset
    bankMine x a.tile && !allocatedAfter l a b && (match a.cmd.op.toNat with
      | 0x73 => x.st == .sum
      | 0x75 => x.st == .rank
      | 0x76 => x.owner == some (BitVec.ofNat 2 (fld a.cmd.d1 32 2))
      | _ => true)) then 0 else 7

/-- Whether every compute command of the tile before a bank command has finished a row (R323, R328). -/
def rowFinished (l : Lens) (a : BankCmd) (row : Nat) : Bool :=
  l.slots.toList.all (fun y => match y with
    | some y =>
      y.tile != a.tile || decide (a.cmd.stamp < y.cmd.stamp) || (match rowBlockOf y.cmd row with
        | some mb => decide ((mb + 1) * lmNb y.cmd * lmKs y.cmd ≤ y.step)
        | none => true)
    | none => true)

def rowFree (l : Lens) (a : BankCmd) (row : Nat) : Bool := !(l.held.any (fun h => h.1 == row)) && rowFinished l a row

/-- Change an accepted command. -/
def modAccepted (c : Nat) (a : BankCmd) (f : BankCmd → BankCmd) (s : State) : State :=
  modLens s c (fun l => { l with accepted := l.accepted.map (fun b =>
    if b.tile = a.tile ∧ b.cmd.stamp = a.cmd.stamp then f b else b) })

/-- A bank command leaves the sequencer and completes. -/
def endBank (c : Nat) (a : BankCmd) (reason where_ done : Nat) (s : State) : State :=
  let s := modLens s c (fun l => { l with accepted := l.accepted.filter (fun b =>
    !(b.tile == a.tile && b.cmd.stamp == a.cmd.stamp)) })
  if a.cmd.op = 0x79 then s else modTile s (tileAt c a.tile) (completeLens a.cmd reason where_ 0 done false)

/-- A row or bank is done; after the last one the command completes. -/
def bankNext (c : Nat) (a : BankCmd) (n : Nat) (s : State) : State :=
  let b := { a with pos := a.pos + 1, sub := 0, done := a.done + 1 }
  if b.pos = n then endBank c b 0 0 b.done s else modAccepted c a (fun _ => b) s

/-- The dispatch of a row (R95, R96): the lowest eligible lamp takes it, once its claims are granted in its turn (R93). -/
def dispatchRow (c : Nat) (a : BankCmd) (s : State) : Option State :=
  let r := tileAt c a.tile
  let t := tileOf s r
  let g := fld a.cmd.d1 32 2
  let can (l : Fin 16) : Bool :=
    let x := lampAt t l.val
    x.st == .stopped && x.group.toNat == g && (vget x.ptrs 1 none).isSome && (vget x.ptrs 2 none).isNone
      && (vget x.ptrs 3 none).isNone && !x.holdsLoan
  if tileHeld s.cycle t || t.lampsStopped then none
  else
    match (List.finRange 16).find? can with
    | none => none
    | some l =>
      some (modAccepted c a (fun b => { b with claim := some l }) (modTile s r (fun t =>
        enterLoan ⟨.dispatch, l, 2, g, s.cycle * 16 + l.val, none⟩
          (modLamp l.val (fun x => { x with st := .blocked, wait := .dispatch }) t))))

/-- What a turn of an accepted command comes to: nothing to do, a wait, a completion without a row operation, or a row
operation. -/
inductive Turn where
  | idle
  | wait
  | ended (s : State)
  | did (s : State)

/-- One row operation of a merge (R334, R351, R353). -/
def mergeOp (c : Nat) (a : BankCmd) (row : Nat) (s : State) : State :=
  let m := (tileOf s (tileAt c a.tile)).sram
  let base := cDst a.cmd + a.pos * acPitch a.cmd
  let hdr := Mem.load m (base + 252) 4
  let n := hdr % 64
  let e := a.sub - 1
  if a.sub = 0 then
    if 31 < n ∨ 2 ^ 13 ≤ hdr then endBank c a 12 a.pos a.done s
    else if n = 0 then bankNext c a (acRows a.cmd) s
    else modAccepted c a (fun b => { b with sub := 1 }) s
  else
    let ws := listInsert (bankOfRow s c row).k (upTo 64 (accWord s c row))
      (BitVec.ofNat 32 (Mem.load m (base + 8 * e) 4)) (BitVec.ofNat 32 (Mem.load m (base + 8 * e + 4) 4))
    let s := putAccWords c row 0 ws s
    if n ≤ a.sub then bankNext c a (acRows a.cmd) s else modAccepted c a (fun b => { b with sub := b.sub + 1 }) s

/-- A DRAIN of which every row has been released completes (R329). -/
def endDrain (c : Nat) (a : BankCmd) (s : State) : State :=
  match a.stopped with
  | some x => endBank c a 11 x a.done s
  | none => endBank c a 0 0 a.done s

/-- Whether the row of a load or the list of a merge holds a granule with an uncorrectable error, which is never delivered
(R224). -/
def sourceBad (t : Tile) (c : KCmd) (i : Nat) : Bool :=
  let lo := cDst c + i * acPitch c
  (c.op == 0x73 || c.op == 0x75) && t.bad.any (fun a => decide (a < lo + (if c.op = 0x73 then 4 * acWds c else 256)) && decide (lo < a + 16))

/-- The turn of one accepted command (R353). -/
def bankTurn (c : Nat) (a : BankCmd) (s : State) : Turn :=
  let l := lensOf s c
  let row := acFirst a.cmd + a.pos
  let n := acRows a.cmd
  let why := if a.checked || a.pos ≠ 0 || a.sub ≠ 0 || a.claim.isSome then 0 else bankReason l a
  if why ≠ 0 then .ended (endBank c a why 0 0 s)
  else match a.cmd.op.toNat with
    | 0x79 =>
      let row := fld a.cmd.d0 0 7 * 32 + a.pos
      .did (bankNext c a (32 * fld a.cmd.d0 8 8) (clearRow c row s))
    | 0x77 | 0x78 =>
      let b := fld a.cmd.d0 0 7 + a.pos
      if (List.range 32).all (fun i => rowFree l a (b * 32 + i)) then
        .did (bankNext c a (fld a.cmd.d0 8 8) (putBanks c [b] (fun x =>
          if a.cmd.op = 0x77 then Bank.reset
          else { x with owner := if bit a.cmd.d0 18 then none else some (BitVec.ofNat 2 (fld a.cmd.d0 16 2)) }) s))
      else .wait
    | 0x76 =>
      if n ≤ a.pos then (if a.out.isEmpty then .ended (endDrain c a s) else .idle)
      else if a.claim.isSome || !rowFree l a row || l.bad.contains row then .wait
      else match dispatchRow c a s with
        | some s => .did s
        | none => .wait
    | op =>
      if !rowFree l a row || (op == 0x75 && l.bad.contains row) || sourceBad (tileOf s (tileAt c a.tile)) a.cmd a.pos then .wait
      else .did (match op with
        | 0x74 => bankNext c a n (clearRow c row s)
        | 0x73 =>
          let m := (tileOf s (tileAt c a.tile)).sram
          bankNext c a n (putAccWords c row (acC0 a.cmd) (upTo (acWds a.cmd) (fun j =>
            BitVec.ofNat 32 (Mem.load m (cDst a.cmd + a.pos * acPitch a.cmd + 4 * j) 4))) s)
        | _ => mergeOp c a row s)

/-- The first turn that does something, in the order of acceptance; a command that waits holds back its own tile alone
(R353). -/
def seqTurns (c : Nat) (s : State) : List Nat → List BankCmd → Turn
  | _, [] => .idle
  | blocked, a :: rest =>
    if blocked.contains a.tile then seqTurns c s blocked rest
    else match bankTurn c a s with
      | .idle => seqTurns c s blocked rest
      | .wait => seqTurns c s (a.tile :: blocked) rest
      | x => x

/-- What a turn leaves; a row operation is the one of its clk (R353). -/
def Turn.after (c : Nat) (s : State) : Turn → Option State
  | .did s' => some (modLens s' c (fun l => { l with rowOpAt := s.cycle + 1 }))
  | .ended s' => some s'
  | _ => none

/-- ROW_OPERATION (R353): at most one row operation per clk; the one that has been chosen for this clk, if any. -/
def tryRowOp (c : LensId) (s : State) : Option State :=
  let l := lensOf s c.val
  match l.turn with
  | some k =>
    let s := modLens s c.val (fun l => { l with turn := none })
    some (((l.accepted.find? (fun a => a.tile == k.1 && a.cmd.stamp == k.2)).bind (fun a =>
      (bankTurn c.val a s).after c.val s)).getD s)
  | none => if s.cycle < l.rowOpAt then none else (seqTurns c.val s [] l.accepted).after c.val s

/-- The completion of a DRAIN, which is no row operation (R329). -/
def tryDrainEnd (c : LensId) (s : State) : Option State :=
  ((lensOf s c.val).accepted.find? (fun a => a.cmd.op == 0x76 && decide (acRows a.cmd ≤ a.pos) && a.out.isEmpty)).map (fun a =>
    endDrain c.val a s)

def execRowOperation (c : LensId) (s : State) : Out := .next (orStay s ((tryDrainEnd c s).or (tryRowOp c s)))

/-- The command whose turn it is, if any does something (R353). -/
def seqTurner (c : Nat) (s : State) : List Nat → List BankCmd → Option BankCmd
  | _, [] => none
  | blocked, a :: rest =>
    if blocked.contains a.tile then seqTurner c s blocked rest
    else match bankTurn c a s with
      | .idle => seqTurner c s blocked rest
      | .wait => seqTurner c s (a.tile :: blocked) rest
      | _ => some a

/-- DRAIN_DISPATCH (R96, R352): the row operation, where it is the dispatch of a DRAIN. -/
def execDrainDispatch (c : LensId) (s : State) : Out :=
  .next (orStay s (match seqTurner c.val s [] (lensOf s c.val).accepted, (lensOf s c.val).turn with
    | some a, none => if a.cmd.op = 0x76 then tryRowOp c s else none
    | _, _ => none))

/-- Whether the row operations of a command go through the accumulator-row port of its tile (R182; log entry 31). -/
def portOp (c : KCmd) : Bool := c.op == 0x73 || c.op == 0x74 || c.op == 0x75 || c.op == 0x79

/-- The choice of the row operation of this clk, on the state before the lamps' bundles: a dispatch is made at once, and another
operation has its effect at the end of the clk, the tile's accumulator-row port being busy with it (R182, R353, R499). -/
def rowTurnAt (c : LensId) (s : State) : Option State :=
  let l := lensOf s c.val
  if l.turn.isSome || decide (s.cycle < l.rowOpAt) then none
  else
    (seqTurner c.val s [] l.accepted).bind (fun a =>
      match bankTurn c.val a s with
      | .did s' =>
        if a.cmd.op = 0x76 then (Turn.did s').after c.val s
        else
          let s := modLens s c.val (fun l => { l with turn := some (a.tile, a.cmd.stamp) })
          some (if portOp a.cmd then modTile s (tileAt c.val a.tile) (fun t => { t with accClk := s.cycle + 1 }) else s)
      | x => x.after c.val s)

/-- A block step of a compute command of the tile keeps its accumulator-row port busy in this clk (R182; log entry 31). -/
def accPortAt (r : Nat) (s : State) : State :=
  let computes := (lensOf s (clusterOf r)).slots.toList.any (fun x => match x with
    | some x => x.tile == posOf r && x.stepEnd.isSome
    | none => false)
  if computes then modTile s r (fun t => { t with accClk := s.cycle + 1 }) else s

end Sys2Proof.Machine
end

