-- ==== Sys2Proof/Machine/Windows.lean ====
section
/-! DEFINITION. Windows and their generations: entries (R430 to R432), WINSET, WINCOMMIT and WINQ (R435 to R439), and the
steps of the lightship that carry them out (R436 to R438). -/

namespace Sys2Proof.Machine

/-! ## Entries (R430 to R432) -/

def wValid (w : W64) : Bool := bit w 63
def wLost (w : W64) : Bool := bit w 62
def wReduce (w : W64) : Bool := bit w 61
def wWrite (w : W64) : Bool := bit w 60
def wRead (w : W64) : Bool := bit w 59
def wStacks (w : W64) : List Nat := (List.range 8).filter (fun m => bit w (51 + m))
def wLimit (w : W64) : Nat := fld w 24 27
def wBase (w : W64) : Nat := fld w 0 22

/-- The bytes of each stack that a window reaches (R432). -/
def wSpan (w : W64) : Nat × Nat :=
  (wBase w * 16384, wBase w * 16384 + ceilDiv (wLimit w) (wStacks w).length * 4096)

/-- The stack and the stack address of a byte of a window (R431). -/
def stackPlace (w : W64) (o : Nat) : Nat × Nat :=
  let ss := wStacks w
  let g := o / 4096
  (ss.getD (g % ss.length) 0, wBase w * 16384 + g / ss.length * 4096 + o % 4096)

/-- Place of R431: the home server tile's rank, and the address within that tile's 16 GiB. -/
def winPlace (w : W64) (o : Nat) : Nat × Nat :=
  let (m, a) := stackPlace w o
  (0x400 + m * 4 + a / 4096 % 4, a / 4096 / 4 * 4096 + a % 4096)

/-- A byte of a window as an address of the package's HBM: stack times 2^36 plus the stack address (R431). -/
def hbmAddr (w : W64) (o : Nat) : Nat := (stackPlace w o).1 * 2 ^ 36 + (stackPlace w o).2

/-- The address of the package's HBM of a place of R431. -/
def hbmOfPlace (home local_ : Nat) : Nat :=
  (home - 0x400) / 4 * 2 ^ 36 + (local_ / 4096 * 4 + (home - 0x400) % 4) * 4096 + local_ % 4096

/-- Whether a valid entry lies within the job's allotment (R432). -/
def wAllotted (j : Job) (w : W64) : Bool :=
  let (lo, hi) := wSpan w
  (wStacks w).all (fun m => j.allot.any (fun a => a.1 == m && decide (a.2.1 * 16384 ≤ lo) && decide (hi ≤ a.2.2 * 16384)))

/-- Whether two entries overlap in a common stack (R436). -/
def wOverlap (a b : W64) : Bool :=
  let (la, ha) := wSpan a
  let (lb, hb) := wSpan b
  (wStacks a).any (fun m => (wStacks b).contains m) && decide (la < hb) && decide (lb < ha)

/-- Whether an entry may become window `n` of a table (R436). -/
def winOk (j : Job) (table : List W64) (n : Nat) (w : W64) : Bool :=
  fld w 22 2 == 0 && !wLost w &&
    (!wValid w || (wLimit w != 0 && !(wStacks w).isEmpty && wAllotted j w
      && (table.zipIdx).all (fun p => p.2 == n || !wValid p.1 || !wOverlap p.1 w)))

/-! ## WINSET (R436) -/

/-- A WINSET whose input tokens are set reaches the lightship; without a record of its job it fails there. -/
def arriveWinset (r : TileId) (c : KCmd) (s : State) : State :=
  let bad := reservedSet c
  match jobById s c.job with
  | some _ =>
    if bad then modTile s r.val (subTok c.station c.job c.tout.toNat)
    else modJob c.job (fun j =>
      { j with winsets := j.winsets ++ [⟨r, c.d0.extractLsb' 0 6, c.d1, c.tout, c.station, s.cycle⟩] }) s
  | none => modTile s r.val (subTok c.station c.job c.tout.toNat)

/-- Send the WINSETs of a tile whose input tokens are set, with fuel for their number. -/
def startWinsets (r : TileId) : Nat → State → State
  | 0, s => s
  | f + 1, s =>
    let t := tileOf s r.val
    match t.eng.scanQ.find? (fun c => c.op == 0x4C && inputsSet t c && (c.station || !t.keeper.preempted)) with
    | none => s
    | some c =>
      startWinsets r f (arriveWinset r c (modTile s r.val (fun t =>
        { t with eng := { t.eng with scanQ := t.eng.scanQ.filter (fun y => y.stamp != c.stamp) } })))

/-- WINSET enters the engine (R436); the checkpoint closes (R222). -/
def enterWinset (c : KCmd) (s : State) : State :=
  startWinsets s.focus 1 (modCur s (fun t => closeCkpt { t with eng := { t.eng with scanQ := t.eng.scanQ ++ [c] } }))

/-- The issue of WINSET (R242, R435, R436). -/
def tryWinset (t : Tok) (k : BitVec 5) (m n : Tok) (s : State) : Option State :=
  issueKC (.winset t k m n) 0x4C 0 t k m n (fun _ _ => true) enterWinset s

def execWinset (t : Tok) (k : BitVec 5) (m n : Tok) (s : State) : Out :=
  .next (orWait (.winset t k m n) s (tryWinset t k m n s))

/-- WINSET_COMPLETE (R436): the first WINSET of a job takes effect in the staged table, or fails. -/
def tryWinsetComplete (i : Fin 4) (s : State) : Option State :=
  match vget s.ls.jobs i.val none with
  | none => none
  | some j =>
    match j.winsets with
    | [] => none
    | q :: rest =>
      let j := { j with winsets := rest }
      let j := if winOk j j.staged q.window.toNat q.entry then { j with staged := j.staged.set q.window.toNat q.entry } else j
      some (modTile { s with ls := { s.ls with jobs := vset s.ls.jobs i.val (some j) } } q.tile.val
        (subTok q.station j.id q.tout.toNat))

def execWinsetComplete (i : Fin 4) (s : State) : Out := .next (orStay s (tryWinsetComplete i s))

/-! ## WINCOMMIT (R437, R419) -/

/-- WINGEN as a word (R434). -/
def winGenWord (j : Job) : W64 := BitVec.ofNat 64 (ofBool j.old.isSome * 65536 + j.gen.toNat)

/-- The ticket that the resume record gives the issuing instruction, with the record cleared (R419): none where it is not
the re-execution of one whose request had been queued. -/
def takeResume (ka : W64) (s : State) : Option Nat × State :=
  let k := (cur s).keeper
  let hit := match k.resume with
    | some x => if x.pc = k.pc ∧ x.ka = ka then x.ticket else none
    | none => none
  (hit, modCur s (fun t => { t with keeper := { t.keeper with resume := none } }))

/-- Wait with a ticket of a request (R419). -/
def waitTicket (i : Instr) (n : Nat) (s : State) : State :=
  waitHere (modCur s (fun t => { t with keeper := { t.keeper with ticket := some n } })) i

/-- WINCOMMIT (R437). -/
def runWincommit (d : BitVec 5) (s : State) : State :=
  let i := Instr.wincommit d
  let t := cur s
  let id := jobOf t
  if !atStation t && !bit t.ctrl.caps 1 then trapPriv (wordOf i) s
  else
    let s := modCur s closeCkpt
    let (old, s) := match t.keeper.ticket with
      | some n => (some n, s)
      | none => takeResume 0 s
    match old with
    | some n =>
      match (jobById s id).bind (fun j => j.served.find? (fun p => p.1 == n)) with
      | some p =>
        retireReg (modJob id (fun j => { j with served := j.served.filter (fun q => q.1 != n) }) s) d
          (BitVec.ofNat 64 (65536 + p.2.toNat)) 1
      | none => waitTicket i n s
    | none =>
      let n := s.ls.tickets
      let s := { s with ls := { s.ls with tickets := n + 1 } }
      waitTicket i n (modJob id (fun j => { j with commits := j.commits ++ [⟨s.focus, n, s.cycle⟩] }) s)

def execWincommit (d : BitVec 5) (s : State) : Out := .next (runWincommit d s)

/-- WINDOW_COMMIT (R437): after the earlier WINSETs, and while no old table is held, the commit is announced. -/
def tryWindowCommit (i : Fin 4) (s : State) : Option State :=
  match vget s.ls.jobs i.val none with
  | none => none
  | some j =>
    match j.commits with
    | [] => none
    | c :: _ =>
      if j.announced.isSome || j.old.isSome || j.winsets.any (fun q => decide (q.arrived ≤ c.arrived)) then none
      else some { s with ls := { s.ls with jobs := vset s.ls.jobs i.val (some { j with announced := some (s.cycle / 128) }) } }

def execWindowCommit (i : Fin 4) (s : State) : Out := .next (orStay s (tryWindowCommit i s))

/-- Change the tiles of a job that are not parked. -/
def modJobTiles (id : BitVec 16) (f : Tile → Tile) (s : State) : State :=
  (jobTiles s id).foldl (fun s r => if jobOf (tileOf s r) = id then modTile s r f else s) s

/-- A new generation takes the staged table as current (R437). -/
def advanceGen (i : Nat) (j : Job) (s : State) : State :=
  let j := { j with old := some j.cur, cur := j.staged, gen := j.gen + 1, announced := none,
                    served := j.served ++ ((j.commits.take 1).map (fun c => (c.ticket, j.gen + 1))), commits := j.commits.drop 1 }
  modJobTiles j.id (fun t => { t with ctrl := { t.ctrl with wingen := winGenWord j } })
    { s with ls := { s.ls with jobs := vset s.ls.jobs i (some j) } }

/-- GENERATION_ADVANCE (R437): at the start of window w + 2. -/
def tryGenerationAdvance (i : Fin 4) (s : State) : Option State :=
  match vget s.ls.jobs i.val none with
  | some j =>
    match j.announced with
    | some w => if s.cycle / 128 < w + 2 then none else some (advanceGen i.val j s)
    | none => none
  | none => none

def execGenerationAdvance (i : Fin 4) (s : State) : Out := .next (orStay s (tryGenerationAdvance i s))

/-- Whether a unit still has a request of a generation, or its data, on its way (R438). -/
def gensOut (s : State) (id : BitVec 16) (g : Nat) : Bool :=
  (jobTiles s id).any (fun r => (slotList s r).any (fun p =>
    p.2.isSend && p.2.job == id && p.2.group == 0xFFF && (p.2.st == .header || p.2.st == .data)
      && p.2.seq.toNat == g))
  || s.servers.any (fun v => (v.2.queued ++ v.2.active).any (fun q => q.job == id && q.gen.toNat == g))

/-- OLD_TABLE_RELEASE (R438). -/
def tryOldTableRelease (i : Fin 4) (s : State) : Option State :=
  match vget s.ls.jobs i.val none with
  | some j =>
    if j.old.isNone || gensOut s j.id (j.gen - 1).toNat then none
    else
      let j := { j with old := none }
      some (modJobTiles j.id (fun t => { t with ctrl := { t.ctrl with wingen := winGenWord j } })
        { s with ls := { s.ls with jobs := vset s.ls.jobs i.val (some j) } })
  | none => none

def execOldTableRelease (i : Fin 4) (s : State) : Out := .next (orStay s (tryOldTableRelease i s))

/-! ## WINQ (R439) -/

/-- A value that the lightship holds for the issuing tile's job, 0 where it holds none. -/
def winqVal (s : State) (f : Job → W64) : W64 :=
  match jobById s (jobOf (cur s)) with
  | some j => f j
  | none => 0

/-- A WINQ waits until the lightship replies (R243, R439), at a time of the lightship's own: its ticket is the clk of the reply
(log entry 49). -/
def runWinq (i : Instr) (d : BitVec 5) (v : W64) (s : State) : State :=
  match (cur s).keeper.ticket with
  | some n => if n ≤ s.cycle then retireReg s d v 1 else waitHere s i
  | none =>
    let (w, s) := fresh s
    waitTicket i (s.cycle + 1 + w.toNat) s

/-- The allotment of a stack as WINQ.ALLOT returns it (R439). -/
def allotWord (j : Job) (m : Nat) : W64 :=
  match j.allot.find? (fun a => a.1 == m) with
  | some (_, lo, hi) => BitVec.ofNat 64 (hi % 2 ^ 22 * 2 ^ 32 + lo % 2 ^ 22)
  | none => 0

def winqCur (d a : BitVec 5) (s : State) : State :=
  runWinq (.winq d a) d (winqVal s (fun j => j.cur.getD (fld (kreg s a) 0 6) 0)) s

def winqStaged (d a : BitVec 5) (s : State) : State :=
  runWinq (.winqSt d a) d (winqVal s (fun j => j.staged.getD (fld (kreg s a) 0 6) 0)) s

def winqGeneration (d : BitVec 5) (s : State) : State := runWinq (.winqGen d) d (cur s).ctrl.wingen s

def winqAllotted (d a : BitVec 5) (s : State) : State :=
  runWinq (.winqAllot d a) d (winqVal s (fun j => allotWord j (fld (kreg s a) 0 3))) s

def execWinq (d a : BitVec 5) (s : State) : Out := .next (winqCur d a s)
def execWinqSt (d a : BitVec 5) (s : State) : Out := .next (winqStaged d a s)
def execWinqGen (d : BitVec 5) (s : State) : Out := .next (winqGeneration d s)
def execWinqAllot (d a : BitVec 5) (s : State) : Out := .next (winqAllotted d a s)

end Sys2Proof.Machine
end

