-- ==== Sys2Proof/Machine/Links.lean ====
section
/-! DEFINITION. The package links: which they join (R16, R407), turns (R414 to R420), TURN and TURNQ. -/

namespace Sys2Proof.Machine

/-- The link at an edge of a C-die: 0 north, 1 east, 2 south, 3 west (R16, R407). -/
def edgeLink (die dir : Nat) : Nat :=
  match die % 4, dir % 4 with
  | 0, 0 => 1
  | 0, 1 => 8
  | 0, 2 => 11
  | 0, _ => 0
  | 1, 0 => 3
  | 1, 1 => 2
  | 1, 2 => 9
  | 1, _ => 8
  | 2, 0 => 11
  | 2, 1 => 10
  | 2, 2 => 5
  | 2, _ => 4
  | _, 0 => 9
  | _, 1 => 6
  | _, 2 => 7
  | _, _ => 10

/-- The edge of a die at which a link attaches, none where it does not. -/
def linkEdge (die l : Nat) : Option Nat := (List.range 4).find? (fun d => edgeLink die d == l)

/-- The C-dies of a ring link, A end first (R407). -/
def ringDies (l : Nat) : Nat × Nat :=
  match l with
  | 8 => (0, 1)
  | 9 => (1, 3)
  | 10 => (2, 3)
  | _ => (0, 2)

/-- Whether a die is at the A end of a link (R407). -/
def atA (l die : Nat) : Bool := if l < 8 then die == l / 2 else die == (ringDies l).1

/-- Whether a die is at the B end of a link; the B end of a stack link is an S-die. -/
def atB (l die : Nat) : Bool := decide (8 ≤ l) && die == (ringDies l).2

/-- The dwell of 2 µs, the dead time of 48 ns and the 4 µs of R417, in clk (R14, R415, R416). -/
def dwellClk : Nat := 3000
def deadClk : Nat := 72
def stallClk : Nat := 6000

/-- The A end's direction of a link, or the B end's. -/
def dirOf (x : Link) (toB : Bool) : LinkDir := if toB then x.ab else x.ba
def setDir (toB : Bool) (d : LinkDir) (x : Link) : Link := if toB then { x with ab := d } else { x with ba := d }

/-! ## TURN (R418, R419) -/

/-- The result word of TURN and TURN.W (R419). -/
def turnWord (status turns sector : Nat) : W64 := BitVec.ofNat 64 (status * 2 ^ 60 + turns % 65536 * 2 ^ 32 + sector)

/-- The queue that a tile's TURN joins (R415). -/
def joinsB (l r : Nat) : Bool := atB l (r / 256)

/-- Whether a ticket still waits at a link. -/
def ticketWaits (x : Link) (n : Nat) : Bool :=
  (x.qa ++ x.qb).any (fun q => q.ticket == n) || ((x.serving.map (fun q => q.ticket == n)).getD false)

/-- Enter a request in a link's queue: none while it is full. The ticket 0 is that of a TURN, which does not wait. -/
def enterTurn (l r sector ticket : Nat) (s : State) : Option State :=
  let x := linkOf s l
  let q : TurnReq := ⟨sector, ticket, s.cycle⟩
  if joinsB l r then if 4 ≤ x.qb.length then none else some (setLink s l { x with qb := x.qb ++ [q] })
  else if 4 ≤ x.qa.length then none else some (setLink s l { x with qa := x.qa ++ [q] })

/-- What TURN.W reports of its ticket: the result once it has been served, FAULT where its link has discarded it (R421). -/
def turnOutcome (x : Link) (n : Nat) : Option W64 :=
  match SMap.find x.served n with
  | some (turns, sector) => some (turnWord 0 turns sector)
  | none => if ticketWaits x n then none else some (turnWord 15 0 0)

/-- A tile forgets a ticket that it has taken. -/
def takeServed (l n : Nat) (s : State) : State :=
  let x := linkOf s l
  setLink s l { x with served := SMap.erase x.served n }

/-- TURN, and TURN.W where `wait` is set (R419). -/
def runTurn (i : Instr) (wait : Bool) (d : BitVec 5) (ka : W64) (s : State) : State :=
  let r := s.focus.val
  let t := cur s
  let l := fld ka 0 4
  let sector := fld ka 4 5
  if !atStation t && !bit t.ctrl.caps 0 then trapPriv (wordOf i) s
  else
    let s := modCur s closeCkpt
    let (old, s) := match t.keeper.ticket, t.keeper.waiting with
      | some n, _ => (some n, s)
      | none, some _ => (none, s)
      | none, none => takeResume ka s
    match old with
    | some n =>
      if !wait then retireReg s d (turnWord 0 0 0) 1
      else match turnOutcome (linkOf s l) n with
        | some w => retireReg (takeServed l n s) d w 1
        | none => waitTicket i n s
    | none =>
      if 11 < l ∨ sector < 2 ∨ 14 < sector ∨ (linkOf s l).st = .down then retireReg s d (turnWord 15 0 0) 1
      else
        let n := s.ls.tickets + 1
        match enterTurn l r sector (if wait then n else 0) { s with ls := { s.ls with tickets := n } } with
        | none => waitHere s i
        | some s => if wait then waitTicket i n s else retireReg s d (turnWord 0 0 0) 1

def execTurn (d a : BitVec 5) (s : State) : Out := .next (runTurn (.turn d a) false d (kreg s a) s)
def execTurnW (d a : BitVec 5) (s : State) : Out := .next (runTurn (.turnW d a) true d (kreg s a) s)

/-! ## TURNQ (R420) -/

/-- The older of the two queue heads, the A end's on a tie (R415): whether it is the B end's, and the request. -/
def turnHead (x : Link) : Option (Bool × TurnReq) :=
  match x.qa, x.qb with
  | [], [] => none
  | a :: _, [] => some (false, a)
  | [], b :: _ => some (true, b)
  | a :: _, b :: _ => if b.arrived < a.arrived then some (true, b) else some (false, a)

/-- Whether the dwell of a link runs (R415). -/
def dwelling (s : State) (x : Link) : Bool :=
  match x.lastEnd with
  | some n => decide (s.cycle < n + dwellClk)
  | none => false

/-- The state code of R420. -/
def linkCode (s : State) (x : Link) : Nat :=
  match x.st with
  | .down => 4
  | .dead => 2
  | .deferred => 3
  | _ => if dwelling s x then 1 else 0

/-- The sector asked by the head being served (R420). -/
def targetOf (x : Link) : Nat :=
  match x.serving with
  | some q => q.sector
  | none => if x.st = .deferred then ((turnHead x).map (fun h => h.2.sector)).getD 0 else 0

/-- The state word of a link (R420). -/
def linkWord (s : State) (x : Link) : W64 :=
  BitVec.ofNat 64 (x.turns % 65536 * 2 ^ 48 + x.qb.length * 2 ^ 36 + x.qa.length * 2 ^ 32 + linkCode s x * 2 ^ 28
    + targetOf x * 2 ^ 16 + x.sector)

/-- The flit counters of a direction (R420). -/
def flitWord (d : LinkDir) : W64 := BitVec.ofNat 64 (Nat.min d.resent (2 ^ 24 - 1) * 2 ^ 40 + d.sent % 2 ^ 40)

/-- A value of the link that ka names, 0 above link 11 (R420). -/
def linkQuery (s : State) (a : BitVec 5) (f : Link → W64) : W64 :=
  let l := fld (kreg s a) 0 4
  if 11 < l then 0 else f (linkOf s l)

def execTurnq (d a : BitVec 5) (s : State) : Out := .next (retireReg s d (linkQuery s a (linkWord s)) 2)
def execTurnqTx (d a : BitVec 5) (s : State) : Out := .next (retireReg s d (linkQuery s a (fun x => flitWord x.ab)) 2)
def execTurnqRx (d a : BitVec 5) (s : State) : Out := .next (retireReg s d (linkQuery s a (fun x => flitWord x.ba)) 2)

end Sys2Proof.Machine
end

