-- ==== Sys2Proof/Machine/Message.lean ====
section
/-! DEFINITION. The message instructions (R306 to R313) and the steps of the message engines (R256 to R281). -/

namespace Sys2Proof.Machine

/-! ## Sends and receives (R306 to R311) -/

/-- The slot number a command names, as the engine counts it (R253, R452). -/
def slotNum (c : KCmd) : Nat := fld c.d1 36 7 + (if c.station then 128 else 0)

/-- Whether the slot of a command is free to take it (R253); a station command that names no station slot does not wait. -/
def msgRoom (c : KCmd) (s : State) : Bool :=
  (c.station && decide (8 ≤ fld c.d1 36 7)) ||
    (match slotAt s s.focus.val (slotNum c) with
     | some m => !m.busy
     | none => true)

/-- The checkpoint closes (R222); a command that fails a check completes FAULT (R307), any other waits in its slot. -/
def enterMsg (c : KCmd) (s : State) : State :=
  let r := s.focus.val
  let s := modTile s r closeCkpt
  let m := reqSlot s r c
  if msgOk s r c then putSlot r (slotNum c) m s
  else if c.station && decide (8 ≤ fld c.d1 36 7) then
    modTile s r (fun t => setEvent 35 (subTok c.station c.job c.tout.toNat t))
  else endReq r (slotNum c) { m with status := 15 } s

/-- The operation and operands of a message command. -/
def msgParts : Instr → Option (BitVec 7 × Tok × BitVec 5 × Tok × Tok)
  | .send t k m n => some (0x60, t, k, m, n)
  | .ssend t k m n => some (0x61, t, k, m, n)
  | .sendTree t k m n => some (0x62, t, k, m, n)
  | .recv t k m n => some (0x63, t, k, m, n)
  | .recvAdd t k m n => some (0x64, t, k, m, n)
  | .recvPx8 t k m n => some (0x65, t, k, m, n)
  | _ => none

/-- The issue of a message command, none while it waits for its slot (R242, R253). -/
def tryMsgInstr (i : Instr) (s : State) : Option State :=
  match msgParts i with
  | some (op, t, k, m, n) => issueKC i op 0 t k m n msgRoom enterMsg s
  | none => some s

def issueMsg (i : Instr) (s : State) : Out := .next (orWait i s (tryMsgInstr i s))

def execSend (t : Tok) (k : BitVec 5) (m n : Tok) (s : State) : Out := issueMsg (.send t k m n) s
def execSsend (t : Tok) (k : BitVec 5) (m n : Tok) (s : State) : Out := issueMsg (.ssend t k m n) s
def execSendTree (t : Tok) (k : BitVec 5) (m n : Tok) (s : State) : Out := issueMsg (.sendTree t k m n) s
def execRecv (t : Tok) (k : BitVec 5) (m n : Tok) (s : State) : Out := issueMsg (.recv t k m n) s
def execRecvAdd (t : Tok) (k : BitVec 5) (m n : Tok) (s : State) : Out := issueMsg (.recvAdd t k m n) s
def execRecvPx8 (t : Tok) (k : BitVec 5) (m n : Tok) (s : State) : Out := issueMsg (.recvPx8 t k m n) s

/-! ## Queries (R312, R313) -/

/-- The slot that a query of the issuing keeper names (R312, R452). -/
def querySlot (s : State) (a : W64) : Nat := fld a 0 7 + (if atStation (cur s) then 128 else 0)

/-- The code of a stored header's kind (R252). -/
def hdrCode (h : HdrRec) : Nat := if h.stub then 7 else if h.pkt.kind = .rts then 1 else 0

/-- The first unexpected header that a receive of these operands would match (R312). -/
def probeHit (s : State) (a b : W64) : Option HdrRec :=
  let t := cur s
  let job := if atStation t then 0xFFFF else jobOf t
  let src := a.extractLsb' 0 32
  let tag := b.extractLsb' 0 24
  let group := b.extractLsb' 24 12
  if group = 0xFFF then none
  else t.msg.hdrs.find? (fun h =>
    h.pkt.job == job && h.pkt.group == group && (src == 0xFFFFFFFF || h.pkt.src == src)
      && (tag == 0xFFFFFF || h.pkt.tag == tag))

def execProbe (d a b : BitVec 5) (s : State) : Out :=
  .next (retireReg s d (match probeHit s (kreg s a) (kreg s b) with
    | some h => BitVec.ofNat 64 (h.pkt.src.toNat * 2 ^ 32 + h.pkt.tag.toNat * 2 ^ 8 + hdrCode h * 16 + 1)
    | none => 0) 2)

def execProbeLen (d a b : BitVec 5) (s : State) : Out :=
  .next (retireReg s d (match probeHit s (kreg s a) (kreg s b) with
    | some h => BitVec.ofNat 64 (2 ^ 63 + h.pkt.len)
    | none => 0) 2)

/-- CANCEL (R271, R272): the result code and the state after it. -/
def cancelSlot (e n : Nat) (s : State) : Nat × State :=
  match slotAt s e n with
  | none => (6, s)
  | some m =>
    if m.st = .waiting ∨ m.st = .posted then (2, endReq e n { m with status := 2 } s)
    else if m.st = .data ∧ !m.isSend ∧ m.mkind ≠ .eager then (2, abortRecv e n s)
    else (6, s)

def execCancel (d a : BitVec 5) (s : State) : Out :=
  let (code, s') := cancelSlot s.focus.val (querySlot s (kreg s a)) s
  .next (retireReg s' d (BitVec.ofNat 64 code) 2)

/-- MWAIT (R312): waits until the slot is not busy. -/
def tryMwait (d a : BitVec 5) (s : State) : Option State :=
  let m := slotAt s s.focus.val (querySlot s (kreg s a))
  if (m.map MSlot.busy).getD false then none else some (retireReg s d (statusRec m false) 1)

def execMwait (d a : BitVec 5) (s : State) : Out := .next (orWait (.mwait d a) s (tryMwait d a s))

/-- Whether slot `j` of the issuing keeper's level is not busy (R253). -/
def slotIdle (s : State) (j : Nat) : Bool :=
  match slotAt s s.focus.val (j + (if atStation (cur s) then 128 else 0)) with
  | some m => !m.busy
  | none => true

def execMtest (d a b : BitVec 5) (s : State) : Out :=
  let base := if bit (kreg s b) 0 then 64 else 0
  .next (retireReg s d (kreg s a &&& (List.range 64).foldl (fun w j => putBit w j (slotIdle s (base + j))) 0) 2)

def execMstat (d a : BitVec 5) (s : State) : Out :=
  .next (retireReg s d (statusRec (slotAt s s.focus.val (querySlot s (kreg s a))) (bit (kreg s a) 7)) 2)

/-- Whether a send or a receive of the tile is in DATA (R313). -/
def inData (t : Tile) : Bool := (t.eng.slots ++ t.stSlots).any (fun p => p.2.st == .data)

/-- MQUIESCE (R313): quiescing begins or ends at once; none while it waits for the transfers in DATA. -/
def tryMquiesce (a : BitVec 5) (s : State) : Option State :=
  if !atStation (cur s) then some (trapPriv (wordOf (.mquiesce a)) s)
  else if bit (kreg s a) 0 then some (advance (modCur s (fun t => { t with msg := { t.msg with quiesced := false } })))
  else if inData (cur s) then none
  else some (advance (modCur s (fun t => { t with msg := { t.msg with quiesced := true } })))

def execMquiesce (a : BitVec 5) (s : State) : Out :=
  .next (match tryMquiesce a s with
    | some s' => s'
    | none => waitHere (modCur s (fun t => { t with msg := { t.msg with quiesced := true } })) (.mquiesce a))

/-! ## Starts (R256, R257) -/

/-- A place in the posting order (R257). -/
def takeStamp (e : Nat) (s : State) : Nat × State :=
  ((tileOf s e).cmdStamp, modTile s e (fun t => { t with cmdStamp := t.cmdStamp + 1 }))

/-- The destinations of a waiting send. -/
def sendDsts (t : Tile) (m : MSlot) : List W32 :=
  if m.kind = .sendTree then treeLeaves (treeAt t.sram (fld m.d3 0 21)) else [m.peer]

/-- Whether a waiting send has to wait for room in the stream table (R256), or would read a granule with an uncorrectable
error (R224). -/
def sendStuck (s : State) (r : Nat) (m : MSlot) : Bool :=
  let t := tileOf s r
  decide (4096 < t.msg.sends.length + newStreams s r m (sendDsts t m)) || t.bad.any (inSendBuf m)

/-- Whether a waiting command issued before this one, a send or a receive as this one, starts in this clk as well: it goes
first (R256, R257). -/
def earlierStart (s : State) (r : Nat) (m : MSlot) : Bool :=
  (slotList s r).any (fun q => q.2.isSend == m.isSend && decide (q.2.stamp < m.stamp) && slotMayStart (tileOf s r) q.1 q.2
    && !(q.2.isSend && sendStuck s r q.2))

/-- Whether more DATA can go out to a destination (R264, R486): it has its CTS, down a tree every destination has, and the next
packet has been read, or the message is at its end. -/
def dataDue (m : MSlot) (u : SubSend) : Bool :=
  u.st == .header && u.cts.isSome && !u.sentData
    && (if m.kind = .sendTree ∧ !u.stub then
          m.subs.all (fun v => !onTree v || v.cts.isSome)
            && (let a := maxN ((m.subs.filter onTree).map (fun v => v.sentTo))
                let b := dataTo m a m.len
                b == m.len || decide (a < b))
        else
          let k := u.cts.getD 0
          let b := dataTo m u.sentTo k
          u.acked.isSome || b == k || decide (u.sentTo < b))

/-- SEND_START (R256): a waiting send of a tile starts, or DATA that has been read goes out, that of a restored send among it
(R264, R457). -/
def trySendStart (r n : Nat) (s : State) : Option State :=
  match slotAt s r n with
  | none => none
  | some m =>
    let t := tileOf s r
    if !m.isSend then none
    else if m.st = .waiting then
      let tree := if m.kind = .sendTree then treeAt t.sram (fld m.d3 0 21) else []
      if !slotMayStart t n m || sendStuck s r m || earlierStart s r m then none
      else some (startSend r n { m with payload := sendBytes t m, tree := tree, todo := sendPieces s.cycle m }
        (fld t.ctrl.eagermax 0 6 * 256) s)
    else if decide (n < 256) && (m.st == .header || m.st == .data) then
      match (m.subs.zipIdx).find? (fun q => dataDue m q.1) with
      | none => none
      | some (u, i) => some (if m.kind = .sendTree ∧ !u.stub then pushTree r n s else sendData r n i s)
    else none

def execSendStart (r : TileId) (n : Nat) (s : State) : Out := .next (orStay s (trySendStart r.val n s))

/-- The first unexpected header that a receive matches (R258): a wildcard receive waits in replay mode (R281). -/
def unexpectedOf (s : State) (e : Nat) (m : MSlot) : Option HdrRec :=
  if withheld s e m then none else (msgOf s e).hdrs.find? (fun h => fits m h.pkt)

/-- A record leaves the header store. -/
def dropHdr (e : Nat) (h : HdrRec) (s : State) : State :=
  modMsg e (fun ms => { ms with hdrs := ms.hdrs.filter (fun x =>
    !(x.pkt.src == h.pkt.src && x.pkt.group == h.pkt.group && x.pkt.seq == h.pkt.seq && x.pkt.job == h.pkt.job)) }) s

/-- PostReceive of R258: matched to an unexpected header, or appended to the posted list. -/
def postReceive (e n stamp : Nat) (m : MSlot) (s : State) : State :=
  let s' := putSlot e n { m with st := .posted, stamp := stamp } s
  match unexpectedOf s e m with
  | some h => doMatch e n h.pkt (some h) (dropHdr e h s')
  | none => s'

/-- Whether a receive would take a message from pool granules with an uncorrectable error (R224). -/
def poolBad (s : State) (r : Nat) (m : MSlot) : Bool :=
  let t := tileOf s r
  match unexpectedOf s r m with
  | some h => h.units.any (fun u => t.bad.any (fun a => decide (poolBase t + 64 * u ≤ a ∧ a < poolBase t + 64 * u + 64)))
  | none => false

/-- RECEIVE_POST (R257, R258). -/
def tryReceivePost (r n : Nat) (s : State) : Option State :=
  match slotAt s r n with
  | none => none
  | some m =>
    if m.isSend || !slotMayStart (tileOf s r) n m || earlierStart s r m || poolBad s r m then none
    else
      let (k, s) := takeStamp r s
      some (postReceive r n k m s)

def execReceivePost (r : TileId) (n : Nat) (s : State) : Out := .next (orStay s (tryReceivePost r.val n s))

/-! ## Arriving packets -/

/-- Run the step of an arriving packet at a unit with a message engine. -/
def onPacket (e : BitVec 16) (n : Nat) (kind : PktKind) (k : Packet → State → State) (s : State) : Out :=
  if !validEng e.toNat then .fault .noSuchUnit
  else .next (match takeInbox e.toNat n kind s with
    | some (p, s') => k p s'
    | none => s)

def execEager (e : BitVec 16) (n : Nat) (s : State) : Out := onPacket e n .eager (eagerArrives e.toNat) s
def execRts (e : BitVec 16) (n : Nat) (s : State) : Out := onPacket e n .rts (headerArrives e.toNat) s
def execCts (e : BitVec 16) (n : Nat) (s : State) : Out := onPacket e n .cts (senderGets e.toNat) s
def execData (e : BitVec 16) (n : Nat) (s : State) : Out := onPacket e n .data (dataArrives e.toNat) s
def execAck (e : BitVec 16) (n : Nat) (s : State) : Out := onPacket e n .ack (senderGets e.toNat) s
def execStub (e : BitVec 16) (n : Nat) (s : State) : Out := onPacket e n .stub (senderGets e.toNat) s
def execNack (e : BitVec 16) (n : Nat) (s : State) : Out := onPacket e n .nack (senderGets e.toNat) s
def execAbort (e : BitVec 16) (n : Nat) (s : State) : Out := onPacket e n .abort (senderGets e.toNat) s
def execRefuse (e : BitVec 16) (n : Nat) (s : State) : Out := onPacket e n .refuse (senderGets e.toNat) s

/-! ## Retries, completion in order, retirement, replay, leaving -/

/-- Whether no earlier header of a destination's stream waits for its own retry (R269). -/
def firstRetry (s : State) (e : Nat) (m : MSlot) (u : SubSend) : Bool :=
  !(allSubs s e).any (fun q =>
    q.2.2.2.dst == u.dst && sameStream q.2.2.1 m && q.2.2.2.st != .complete && (q.2.2.2.seq - u.seq).slt 0
      && q.2.2.2.retryAt.isSome)

/-- NACK_RETRY (R269): a refused header goes out again, then the later headers of its stream that are due. -/
def tryNackRetry (e n : Nat) (s : State) : Option State :=
  match slotAt s e n with
  | none => none
  | some m =>
    match (m.subs.zipIdx).find? (fun q =>
      (match q.1.retryAt with | some k => decide (k ≤ s.cycle) | none => false) && q.1.st != .complete
        && firstRetry s e m q.1) with
    | none => none
    | some (u, i) =>
      let s := modSub e n i (fun u => { u with retryAt := none }) s
      some (flushDue e m u.dst 256 (emitAll e (headerPkts s e m u) s))

def execNackRetry (e : BitVec 16) (n : Nat) (s : State) : Out :=
  if !validEng e.toNat then .fault .noSuchUnit else .next (orStay s (tryNackRetry e.toNat n s))

def execOrderedComplete (e : BitVec 16) (n : Nat) (s : State) : Out :=
  if !validEng e.toNat then .fault .noSuchUnit else .next (orStay s (tryOrdered e.toNat n s))

/-- Whether the receiver has matched all it was offered of a stream (R256). -/
def recvClean (s : State) (e : Nat) (x : RecvStream) : Bool :=
  x.held.isEmpty && x.matched.isEmpty && !x.refused
    && !(msgOf s e).hdrs.any (fun h => h.pkt.src == x.peer && h.pkt.group == x.group && h.pkt.job == x.job)

/-- Retire one stream at its sender, and at its receiver where that is a unit of this package (R256). -/
def retireSend (e : Nat) (x : SendStream) (s : State) : State :=
  let here := nodeOf x.peer == s.ls.node
  let q := recvStream s (localOf x.peer) (unitRank s e) x.group x.job
  if x.open_ ≠ 0 ∨ (here ∧ (!recvClean s (localOf x.peer) q || q.next != x.next)) then s
  else
    let s := modMsg e (fun ms => { ms with sends := ms.sends.filter (fun y =>
      !(y.peer == x.peer && y.group == x.group && y.job == x.job)) }) s
    if here then modMsg (localOf x.peer) (fun ms => { ms with recvs := ms.recvs.filter (fun y =>
      !(y.peer == unitRank s e && y.group == x.group && y.job == x.job)) }) s
    else s

/-- STREAM_RETIRE (R256): a stream of this engine as sender; a stream from another node also as its receiver. -/
def execStreamRetire (e : BitVec 16) (peer : W32) (group : BitVec 12) (s : State) : Out :=
  if !validEng e.toNat then .fault .noSuchUnit
  else
    let u := e.toNat
    let s := ((msgOf s u).sends.filter (fun x => x.peer == peer && x.group == group)).foldl (fun s x => retireSend u x s) s
    .next (if nodeOf peer == s.ls.node then s
      else modMsg u (fun ms => { ms with recvs := ms.recvs.filter (fun x =>
        !(x.peer == peer && x.group == group && recvClean s u x)) }) s)

/-- The match-log entry at the index (R280). -/
def logEntry (t : Tile) : Nat :=
  Mem.load t.sram (ringBase t + fld t.ctrl.matchlog 48 16 % 2 ^ fld t.ctrl.matchlog 40 5 * 16) 16

/-- The index goes on by one entry (R281). -/
def nextEntry (t : Tile) : Tile :=
  let ml := t.ctrl.matchlog
  { t with ctrl := { t.ctrl with matchlog := putFld ml 48 16 ((fld ml 48 16 + 1) % 2 ^ fld ml 40 5) } }

/-- The receive and the header that a match-log entry pairs, once both are there (R281): a posted wildcard receive in the entry's
slot, of the job or of the station, and the header of its job with the entry's source, sequence number and group. -/
def replayPairOf (s : State) (r w : Nat) : Option (Nat × MSlot × HdrRec) :=
  let n := bitsN w 64 7
  [n, n + 128].findSome? (fun k =>
    (slotAt s r k).bind (fun m =>
      if m.isSend || m.st != .posted || !(m.anySrc || m.anyTag) then none
      else ((tileOf s r).msg.hdrs.find? (fun h =>
        h.pkt.src.toNat == bitsN w 0 32 && h.pkt.seq.toNat == bitsN w 32 32 && h.pkt.group.toNat == bitsN w 96 12
          && h.pkt.job == m.job)).map (fun h => (k, m, h))))

/-- REPLAY_PAIR (R281): one entry is passed over, or its receive and its header are paired. -/
def tryReplayPair (r : Nat) (s : State) : Option State :=
  let t := tileOf s r
  if ringMode t ≠ 2 then none
  else
    let w := logEntry t
    if bitsN w 71 1 = 0 then some (modTile s r nextEntry)
    else
      (replayPairOf s r w).map (fun (n, m, h) =>
        if fits m h.pkt then doMatch r n h.pkt (some h) (dropHdr r h (modTile s r nextEntry))
        else
          endReq r n { m with status := 15 } (modTile s r (fun t =>
            setEvent 35 { t with ctrl := { t.ctrl with matchlog := putFld t.ctrl.matchlog 0 2 0 } })))

/-- Whether the match log has an entry to pair: entries are passed over only on the way to one (R281). -/
def replayLeft (t : Tile) : Bool :=
  (List.range (ringSize t / 16)).any (fun i => bitsN (Mem.load t.sram (ringBase t + 16 * i) 16) 71 1 == 1)

/-- Whether the entry to come pairs a receive, or leads on to one that does: entries of a ring without such are not passed over
for ever (R281). -/
def replayDue (t : Tile) : Bool := bitsN (logEntry t) 71 1 == 1 || replayLeft t

def execReplayPair (r : TileId) (s : State) : Out := .next (orStay s (tryReplayPair r.val s))

/-- Whether a job is the one that a peer leaves, where only one is left. -/
def ofJob (id : Option (BitVec 16)) (j : BitVec 16) : Bool := id.isNone || id == some j

/-- A slot's transfers with a peer that leaves complete PEER_FAULT (R273, R274, R276). -/
def slotLeave (e : Nat) (peer : W32) (id : Option (BitVec 16)) (s : State) (p : Nat × MSlot) : State :=
  let (n, m) := p
  if !ofJob id m.job then s
  else if m.isSend then
    ((m.subs.zipIdx).filter (fun q => q.1.dst == peer && q.1.st != .complete)).foldl (fun s q =>
      pushTree e n (endSub e n q.2 4 0 s)) s
  else if m.st = .data ∧ m.src = peer then endRecv e n 4 0 s
  else s

end Sys2Proof.Machine
end

