-- ==== Sys2Proof/Machine/Route.lean ====
section
/-! DEFINITION. Routes: between packages (R476 to R484), between dies (R413, R421), within a die (R375, R376, R500). -/

namespace Sys2Proof.Machine

/-! ## Between packages -/

/-- The coordinates of a node (R476). -/
def coordA (n : Nat) : Nat := n % 2
def coordB (n : Nat) : Nat := n / 2 % 4
def coordC (n : Nat) : Nat := n / 8 % 32
def coordD (n : Nat) : Nat := n / 256 % 32

/-- The state of a port. -/
def portOf (s : State) (m : Nat) : PortSt := vget s.ports m PortSt.reset

/-- Change a port. -/
def modPort (m : Nat) (f : PortSt → PortSt) (s : State) : State := { s with ports := vset s.ports m (f (portOf s m)) }

/-- Whether a port carries a packet (R481, R487). -/
def portCarries (s : State) (p : Packet) (m : Nat) : Bool :=
  match (portOf s m).st with
  | .run => true
  | .locked => p.job == 0xFFFF && p.ordered
  | _ => false

/-- The steps in the + and the - direction of a torus of `n`. -/
def torusUp (n from_ goal : Nat) : Nat := (goal + n - from_) % n
def torusDown (n from_ goal : Nat) : Nat := (from_ + n - goal) % n

/-- The ports that shorten the distance to a node (R481). -/
def productive (s : State) (dst : Nat) : List Nat :=
  let own := s.ls.node.toNat
  let (ca, cb, cc, cd) := (coordA own, coordB own, coordC own, coordD own)
  let torus (n f t m : Nat) : List Nat :=
    if f = t then []
    else if torusUp n f t < torusDown n f t then [m]
    else if torusDown n f t < torusUp n f t then [m + 1]
    else [m, m + 1]
  (if ca = coordA dst then [] else [0, 1]) ++ (if cb < coordB dst then [2] else if coordB dst < cb then [3] else [])
    ++ torus s.ls.cn cc (coordC dst) 4 ++ torus s.ls.dn cd (coordD dst) 6

/-- The port of the dimension order to a node (R482). -/
def orderedPort (s : State) (dst : Nat) (skipA : Bool) : Option Nat :=
  let own := s.ls.node.toNat
  let torus (n f t m : Nat) : Option Nat :=
    if f = t then none else if torusUp n f t ≤ torusDown n f t then some m else some (m + 1)
  let a := if skipA ∨ coordA own = coordA dst then none else some (if coordA own = 0 then 0 else 1)
  let b := if coordB own < coordB dst then some 2 else if coordB dst < coordB own then some 3 else none
  a.or (b.or ((torus s.ls.cn (coordC own) (coordC dst) 4).or (torus s.ls.dn (coordD own) (coordD dst) 6)))

/-- The hops that a node is away in B, C and D. -/
def hopsBCD (s : State) (dst : Nat) : Nat :=
  let own := s.ls.node.toNat
  let t (n f x : Nat) : Nat := Nat.min (torusUp n f x) (torusDown n f x)
  (coordB own - coordB dst) + (coordB dst - coordB own) + t s.ls.cn (coordC own) (coordC dst)
    + t s.ls.dn (coordD own) (coordD dst)

/-- The A port towards the partner (R478). -/
def portA (s : State) : Nat := if coordA s.ls.node.toNat = 0 then 0 else 1

/-- The next port of a packet in ORDERED mode and its detour mark (R482, R483): 1 a detour in A to step back before the
last hop, 2 one to step back as the last hop, 3 a detour in +B, 4 one in -B, to step back in B once the A hop is made, 5 a
detour that is over. -/
def orderedHop (s : State) (p : Packet) (dst : Nat) : Option (Nat × Nat) :=
  let ok (m d : Nat) : Option (Nat × Nat) := if portCarries s p m then some (m, d) else none
  let n := hopsBCD s dst
  let inA := coordA s.ls.node.toNat = coordA dst
  let late := (p.detours = 1 ∧ 2 ≤ n) ∨ (p.detours = 2 ∧ 1 ≤ n)
  if inA ∧ p.detours = 3 then ok 3 5
  else if inA ∧ p.detours = 4 then ok 2 5
  else match orderedPort s dst late with
  | none => none
  | some m =>
    match ok m p.detours with
    | some x => some x
    | none =>
      if p.detours ≠ 0 then none
      else if 2 ≤ m then ok (portA s) (if n = 1 then 2 else 1)
      else if coordB s.ls.node.toNat = 3 then ok 3 4
      else ok 2 3

/-- The next port of a packet in ADAPTIVE mode and its detour count (R482). -/
def adaptiveHop (s : State) (p : Packet) (dst : Nat) : Option (Nat × Nat) :=
  let ms := (productive s dst).filter (portCarries s p)
  match sortBy (fun a b => decide ((portOf s a).queue.length < (portOf s b).queue.length
      ∨ ((portOf s a).queue.length = (portOf s b).queue.length ∧ a < b))) ms with
  | m :: _ => some (m, p.detours)
  | [] =>
    if 2 ≤ p.detours then none
    else match [0, 1].filter (portCarries s p) with
      | m :: _ => some (m, p.detours + 1)
      | [] => none

/-- The port by which a packet for another node leaves (R464, R481): a host is reached at a host port. -/
def nextPort (s : State) (p : Packet) : Option (Nat × Nat) :=
  let dst := (nodeOf p.dst).toNat
  if 0x2000 ≤ dst then
    ([8, 9].find? (fun m => portCarries s p m && (portOf s m).peer.toNat == dst)).map (fun m => (m, p.detours))
  else if p.ordered then orderedHop s p dst else adaptiveHop s p dst

/-- The stack whose S-die carries a port (R478). -/
def portStack (m : Nat) : Nat := if m = 8 then 0 else if m = 9 then 7 else m

/-! ## Between dies (R413, R421) -/

/-- The next die of the ring in the order 0, 1, 3, 2, and the link to it. -/
def ringNext (die : Nat) (cw : Bool) : Nat × Nat :=
  match die % 4, cw with
  | 0, true => (1, 8)
  | 1, true => (3, 9)
  | 3, true => (2, 10)
  | 2, true => (0, 11)
  | 1, false => (0, 8)
  | 3, false => (1, 9)
  | 2, false => (3, 10)
  | _, _ => (2, 11)

/-- The links of the way around the ring to a die, with fuel. -/
def ringWay (cw : Bool) (goal : Nat) : Nat → Nat → List Nat
  | 0, _ => []
  | f + 1, die => if die = goal then [] else (ringNext die cw).2 :: ringWay cw goal f (ringNext die cw).1

/-- Whether every link of a way is up. -/
def wayUp (s : State) (ls : List Nat) : Bool := ls.all (fun l => (linkOf s l).st != .down)

/-- The credits that a die's end of a link holds for a channel. -/
def linkCredits (s : State) (l die v : Nat) : Nat := vget (dirOf (linkOf s l) (atA l die)).credits v 0

/-- The edges by which a packet may leave a die for another one (R413, R421), preferred first. -/
def ringEdges (s : State) (die goal v : Nat) : List Nat :=
  let ways := [ringWay true goal 3 die, ringWay false goal 3 die].filter (wayUp s)
  let short := ways.filter (fun w => ways.all (fun x => decide (w.length ≤ x.length)))
  let first (w : List Nat) : Nat := w.headD 0
  let mid (w : List Nat) : Nat := let (a, b) := ringDies (first w); if a = die then b else a
  let order := sortBy (fun a b =>
    if v = 3 ∨ linkCredits s (first a) die v = linkCredits s (first b) die v then decide (mid a < mid b)
    else decide (linkCredits s (first b) die v < linkCredits s (first a) die v)) short
  order.filterMap (fun w => linkEdge die (first w))

/-! ## Within a die (R375, R376, R500) -/

/-- The number of a port: 0 north, 1 east, 2 south, 3 west, 4 local, 5 lightship. -/
def portNum : Port → Nat
  | .north => 0
  | .east => 1
  | .south => 2
  | .west => 3
  | .loc => 4
  | .lightship => 5

/-- The key of a node. -/
def nodeKey : NetNode → Nat
  | .tile r => r.val
  | .sdie m => 2048 + m.val

/-- The router beyond a mesh port, none off the die (R374). -/
def neighbour (k dir : Nat) : Option Nat :=
  let x := k % 16
  let y := k % 256 / 16
  match dir with
  | 0 => if y = 0 then none else some (k - 16)
  | 1 => if x = 15 then none else some (k + 1)
  | 2 => if y = 15 then none else some (k + 16)
  | 3 => if x = 0 then none else some (k - 1)
  | _ => none

/-- The mesh buffers by channel (R374) and the link buffers (R411). -/
def meshCap (v : Nat) : Nat := [8, 16, 80, 8].getD v 0
def linkCap (v : Nat) : Nat := [64, 128, 1024, 64].getD v 0

/-- The directions that bring a packet nearer a tile of the die. -/
def nearer (k tx ty : Nat) : List Nat :=
  let x := k % 16
  let y := k % 256 / 16
  (if x < tx then [1] else if tx < x then [3] else []) ++ (if y < ty then [2] else if ty < y then [0] else [])

/-- The free cells of the next buffer of a mesh output. -/
def meshFree (s : State) (k dir v : Nat) : Nat := meshCap v - SMap.getD (routerOf s k).used (dir * 4 + v) 0

/-- The output towards a tile of the die, or `here` at it (R375). -/
def toward (s : State) (k v tx ty here : Nat) : Nat :=
  match nearer k tx ty with
  | [] => here
  | [d] => d
  | d :: e :: _ => if v = 3 then d else if meshFree s k d v < meshFree s k e v then e else d

/-- The place of a packet's destination: 0 a tile, 1 the lightship, 2 the S-die of a stack, 3 none; with its number. -/
def destKind (s : State) (p : Packet) : Nat × Nat :=
  let l := localOf p.dst
  if nodeOf p.dst ≠ s.ls.node then
    match p.via with
    | some m => (2, portStack m.val)
    | none => (3, 0)
  else if l < 0x400 then (0, l)
  else if l < 0x420 then (2, (l - 0x400) / 4)
  else if l = lsRank then (1, 0)
  else (3, 0)

/-- Whether a packet carries a DIE entry of a die, to be stripped there (R486). -/
def stripsAt (s : State) (die : Nat) (p : Packet) : Bool :=
  match p.tree with
  | [] => false
  | (w, _) :: _ => treeKind w == 1 && nodeOf (treeTarget w) == s.ls.node && (treeTarget w).toNat % 4 == die

/-- The output that a head takes at a tile's router (R375, R376, R413, R500): a packet on its way to another die goes
straight on. -/
def routeTile (s : State) (k inPort v : Nat) (p : Packet) : Option Nat :=
  let die := k / 256
  let off (goal : Nat) : Option Nat :=
    let es := ringEdges s die goal v
    let on := (inPort + 2) % 4
    if inPort < 4 ∧ (neighbour k inPort).isSome ∧ es.contains on then some on else es.head?
  if stripsAt s die p then none
  else match destKind s p with
    | (0, l) => if l / 256 = die then some (toward s k v (l % 16) (l % 256 / 16) 4) else off (l / 256)
    | (1, _) => some (toward s k v 8 8 5)
    | (2, m) => if m / 2 = die then linkEdge die m else off (m / 2)
    | _ => none

/-- The edge router of a die's edge by its row or column (R376). -/
def edgeTile (die dir i : Nat) : Nat :=
  die * 256 + (match dir with
    | 0 => i
    | 1 => i * 16 + 15
    | 2 => 240 + i
    | _ => i * 16)

/-- The row or column of an edge router. -/
def edgeIdx (k dir : Nat) : Nat := if dir % 2 = 0 then k % 16 else k % 256 / 16

/-- The edge router by which a packet from an S-die enters its C-die (R376). -/
def entryIdx (s : State) (m v : Nat) (p : Packet) : Nat :=
  let die := m / 2
  let dir := (linkEdge die m).getD 0
  let held (i : Nat) : Nat := (SMap.getD (routerOf s (edgeTile die dir i)).inBufs (dir * 4 + v) []).length
  let free : Nat := ((List.range 16).find? (fun i => (List.range 16).all (fun j => decide (held i ≤ held j)))).getD 0
  match destKind s p with
  | (0, l) => if l / 256 = die then edgeIdx l dir else free
  | (1, _) => 8
  | _ => free

/-- The output that a head takes at an S-die, and the edge router it is sent to: 4 the server tiles, 1 the port bridge, 0
the link (R376, R478). -/
def routeSdie (s : State) (m v : Nat) (p : Packet) : Option (Nat × Nat) :=
  match destKind s p with
  | (2, m') =>
    if m' ≠ m then some (0, entryIdx s m v p)
    else if nodeOf p.dst = s.ls.node then some (4, 0) else some (1, 0)
  | (3, _) => none
  | _ => some (0, entryIdx s m v p)

/-- The output of a head and, on a link, the edge router that it goes by or to. -/
def routeOf (s : State) (k inPort v : Nat) (p : Packet) : Option (Nat × Nat) :=
  if 2048 ≤ k then routeSdie s (k - 2048) v p
  else (routeTile s k inPort v p).map (fun d => (d, edgeIdx k d))

/-- A packet for another node gets the port it leaves by (R481): none where it has no route (R484). -/
def withPort (s : State) (p : Packet) : Option Packet :=
  if nodeOf p.dst = s.ls.node then some { p with via := none }
  else (nextPort s p).map (fun x => { p with via := some (Fin.ofNat 10 x.1), detours := x.2 })

end Sys2Proof.Machine
end

