-- ==== Sys2Proof/Machine/Server.lean ====
section
/-! DEFINITION. Server tiles: request descriptors, conversions, checks and the effect of each request (R422 to R429). -/

namespace Sys2Proof.Machine

/-! ## Request descriptors (R423) -/

def rqOp (b : List Byte) : Nat := leAt b 0 1 % 16
def rqWindow (b : List Byte) : Nat := leAt b 1 1
def rqConv (b : List Byte) : Nat := leAt b 2 1
def rqEtype (b : List Byte) : Nat := leAt b 3 1
def rqOffset (b : List Byte) : Nat := leAt b 8 5
def rqRows (b : List Byte) : Nat := leAt b 16 4
def rqRowBytes (b : List Byte) : Nat := leAt b 20 4
def rqStride (b : List Byte) : Nat := leAt b 24 5
def rqReply (b : List Byte) : W32 := BitVec.ofNat 32 (leAt b 32 4)
def rqTag (b : List Byte) : Nat := leAt b 36 3
def rqGroup (b : List Byte) : Nat := leAt b 39 2
def rqDstWindow (b : List Byte) : Nat := leAt b 41 1
def rqDstOffset (b : List Byte) : Nat := leAt b 48 5

/-- The bytes of all rows. -/
def rqTotal (b : List Byte) : Nat := rqRows b * rqRowBytes b

/-- The window offset of each row (R423). -/
def rqRowOffsets (b : List Byte) : List Nat :=
  upTo (rqRows b) (fun r => rqOffset b + (if rqOp b = 2 then leAt b (64 + 4 * r) 4 else r) * rqStride b)

/-- The rows as pairs of window offset and position among the rows' bytes. -/
def rqPlaces (b : List Byte) : List (Nat × Nat) :=
  ((rqRowOffsets b).zipIdx).map (fun p => (p.1, p.2 * rqRowBytes b))

/-! ## Conversions (R425) -/

/-- The types of a conversion: stored in HBM, in the message. -/
def convTypes (c : Nat) : Option (NumTy × NumTy) :=
  match c with
  | 3 => some (.flt bf16, .flt e4m3)
  | 4 => some (.flt bf16, .flt e5m2)
  | 5 => some (.flt fp32, .flt bf16)
  | 6 => some (.flt e4m3, .flt bf16)
  | _ => none

/-- The bytes of an element stored in HBM (R425). -/
def convStored (c : Nat) : Nat :=
  match convTypes c with
  | some (a, _) => a.width / 8
  | none => 1

/-- Convert the whole elements of a byte string, RNE and SAT (R425). -/
def convBytes (src dst : NumTy) (bs : List Byte) : List Byte :=
  (chunks (src.width / 8) bs).flatMap (fun x =>
    if x.length < src.width / 8 then [] else leBytes (dst.width / 8) (convert src dst .rne false false false (leNat x)).bits)

/-- The 16-bit items of a byte string. -/
def items16 (bs : List Byte) : List Nat := (chunks 2 bs).map leNat

/-- A PX8 stream of BF16 rows (R290, R425). -/
def encodeStream (bs : List Byte) : List Byte :=
  px8Stream ((chunks 64 bs).map (fun x => (px8EncodeBf .rne false (items16 x)).getD []))

/-- The BF16 bytes of up to `n` blocks of a PX8 stream, and whether all were there (R39, R172, R425). -/
def decodeStream (n : Nat) (bs : List Byte) : List Byte × Bool :=
  let (xs, ok) := px8DecodeBlocks n (px8StreamBits bs)
  (xs.flatMap (fun x => x.elems.flatMap (fun e => leBytes 2 (px8Bf16Elem .rne false false x.scale e).bits)), ok)

/-- The message bytes of stored bytes (R424, R425). -/
def convOut (c : Nat) (bs : List Byte) : List Byte :=
  if c = 1 then encodeStream bs
  else match convTypes c with
    | some (a, b) => convBytes a b bs
    | none => bs

/-- The message size that a stored size implies, the longest for conversion 0x02 (R424). -/
def msgSize (c total : Nat) : Nat :=
  if c = 2 ∨ c = 1 then 4 + 4 * ceilDiv (25 * (total / 64)) 2
  else match convTypes c with
    | some (a, b) => total / (a.width / 8) * (b.width / 8)
    | none => total

/-! ## Checks (R425, R426) -/

/-- Whether the reply fields can be read (R426 check 1). -/
def replyOk (s : State) (q : ServReq) : Bool :=
  let b := q.bytes
  decide (41 ≤ b.length) && decide (1 ≤ rqTag b ∧ rqTag b ≤ 0x7FFFFE) && decide (rqGroup b < 0xFFF)
    && destOk s q.job (q.job == 0xFFFF) (BitVec.ofNat 12 (rqGroup b)) (rqReply b)

/-- The conversion codes of an opcode (R425). -/
def convsOf (op : Nat) : List Nat :=
  match op with
  | 0 | 2 => [0, 1, 3, 4, 5, 6]
  | 1 => [0, 2, 3, 4, 5, 6]
  | 3 => [0]
  | 4 => [0, 1, 2, 3, 4, 5, 6]
  | _ => []

/-- The element size that rows are made of (R425). -/
def elemSize (b : List Byte) : Nat := if rqOp b = 3 then (if rqEtype b = 0 then 4 else 2) else convStored (rqConv b)

/-- The form of a request (R426 check 2). -/
def formOk (b : List Byte) : Bool :=
  let op := rqOp b
  leAt b 0 1 / 16 == 0 && decide (op ≤ 4) && decide (rqWindow b < 64) && leAt b 6 2 == 0 && leAt b 13 3 == 0
    && leAt b 29 3 == 0 && leAt b 42 6 == 0 && leAt b 53 3 == 0 && leAt b 56 8 == 0
    && decide (rqEtype b ≤ if op = 3 then 1 else 0) && (convsOf op).contains (rqConv b)
    && decide (1 ≤ rqRows b ∧ rqRows b ≤ 65535) && decide (1 ≤ rqRowBytes b ∧ rqRowBytes b ≤ 2 ^ 21)
    && (op != 4 || decide (rqDstWindow b < 64))
    && ((rqConv b != 1 && rqConv b != 2) || rqTotal b % 64 == 0)
    && rqRowBytes b % elemSize b == 0
    && (op != 3 || (rqOffset b % elemSize b == 0 && rqStride b % elemSize b == 0))
    && b.length == (if op = 2 then 64 + 4 * rqRows b else 64)

/-- The table of a generation that the servers hold (R433). -/
def tableOf (j : Job) (g : BitVec 16) : Option (List W64) :=
  if g = j.gen then some j.cur
  else if g = j.gen - 1 ∧ j.old.isSome then j.old
  else if g = j.gen + 1 ∧ j.announced.isSome then some j.staged
  else none

/-- The entry of a job's save window (R452): 4 MiB for each tile of its partition. -/
def saveEntry (j : Job) : W64 :=
  match j.saveBase with
  | some (mask, base) =>
    BitVec.ofNat 64 (2 ^ 63 + ofBool j.saveLost * 2 ^ 62 + 2 ^ 60 + 2 ^ 59 + mask * 2 ^ 51
      + sumN (j.rects.map (fun q => (q.cx1 + 1 - q.cx0) * (q.cy1 + 1 - q.cy0) * 8)) * 1024 * 2 ^ 24 + base)
  | none => 0

/-- The table of a request: that of its job and generation; the save window of a slot serves job 0xFFFF (R452). -/
def tableFor (s : State) (q : ServReq) : Option (List W64) :=
  if q.job = 0xFFFF then
    if q.gen ≠ 0 then none
    else some (upTo 64 (fun i => match (if i < 4 then vget s.ls.jobs i none else none) with
      | some j => saveEntry j
      | none => 0))
  else (jobById s q.job).bind (fun j => tableOf j q.gen)

/-- The bytes that a CONVERT writes (R424, R425), the longest for a stream. -/
def outSize (b : List Byte) : Nat := if rqConv b = 2 then rqTotal b else msgSize (rqConv b) (rqTotal b)

/-- The status of the first check that a request fails, in the order of R426: 0 where it passes. -/
def rqStatus (s : State) (q : ServReq) : Nat :=
  let b := q.bytes
  let op := rqOp b
  if !formOk b then 15
  else
    match tableFor s q with
    | none => 15
    | some tb =>
      let w := tb.getD (rqWindow b) 0
      let d := if op = 4 then tb.getD (rqDstWindow b) 0 else w
      if !wValid w || !wValid d then 15
      else if wLost w || wLost d then 7
      else if !(match op with
          | 0 | 2 => wRead w
          | 1 => wWrite w
          | 3 => wReduce w
          | _ => wRead w && wWrite d) then 15
      else if (rqRowOffsets b).any (fun o => decide (wLimit w * 4096 < o + rqRowBytes b)) then 15
      else if op = 4 && decide (wLimit d * 4096 < rqDstOffset b + outSize b) then 15
      else 0

/-! ## Effects (R424) -/

/-- The window entry of a request, and that of its destination. -/
def rqEntry (s : State) (q : ServReq) (dst : Bool) : W64 :=
  ((tableFor s q).getD []).getD (if dst then rqDstWindow q.bytes else rqWindow q.bytes) 0

/-- The rows' bytes in order. -/
def readRows (s : State) (q : ServReq) : List Byte :=
  let w := rqEntry s q false
  (rqRowOffsets q.bytes).flatMap (fun o => upTo (rqRowBytes q.bytes) (fun i => Mem.read s.hbm (hbmAddr w (o + i))))

/-- Write bytes of a window. -/
def writeWin (w : W64) (o : Nat) (bs : List Byte) (m : Mem) : Mem :=
  (bs.zipIdx).foldl (fun m p => Mem.write m (hbmAddr w (o + p.2)) p.1) m

/-- Write bytes over the rows of a request. -/
def writeRows (s : State) (q : ServReq) (bs : List Byte) : State :=
  let w := rqEntry s q false
  { s with hbm := (rqPlaces q.bytes).foldl (fun m p => writeWin w p.1 ((bs.drop p.2).take (rqRowBytes q.bytes)) m) s.hbm }

/-- Add elements into the rows of a request (R66). -/
def reduceRows (s : State) (q : ServReq) (bs : List Byte) : State :=
  let w := rqEntry s q false
  let ty : AddTy := if rqEtype q.bytes = 0 then .f32 else .bf16
  let n := ty.bytes
  let addAt (m : Mem) (o : Nat) (x : List Byte) : Mem :=
    let old := leNat (upTo n (fun i => Mem.read m (hbmAddr w (o + i))))
    writeWin w o (leBytes n (ty.add old (leNat x)).1) m
  { s with hbm := (rqPlaces q.bytes).foldl (fun m p =>
      ((chunks n ((bs.drop p.2).take (rqRowBytes q.bytes))).zipIdx).foldl (fun m x =>
        if x.1.length < n then m else addAt m (p.1 + n * x.2) x.1) m) s.hbm }

/-- Replace an active request. -/
def putReq (v i : Nat) (q : ServReq) (s : State) : State :=
  setServer s v { serverOf s v with active := (serverOf s v).active.set i q }

/-- Remove an active request. -/
def dropReq (v i : Nat) (s : State) : State :=
  setServer s v { serverOf s v with active := (serverOf s v).active.eraseIdx i }

/-- Answer a request with a message; it is finished when the message has been sent (R424). -/
def reply (v i : Nat) (q : ServReq) (tag : Nat) (bs : List Byte) (s : State) : State :=
  let b := q.bytes
  let e := 0x400 + v
  let n := newSlot s e
  (unitSend e (rqReply b) (BitVec.ofNat 24 tag) (BitVec.ofNat 12 (rqGroup b)) q.job bs (putReq v i { q with slot := some n } s)).2

/-- The status reply (R426, R427): a refused READ or GATHER answers under its tag plus 0x80_0000. -/
def statusReply (v i : Nat) (q : ServReq) (status written : Nat) (s : State) : State :=
  let refusedRead := rqOp q.bytes = 0 ∨ rqOp q.bytes = 2
  reply v i q (rqTag q.bytes + if refusedRead then 0x800000 else 0)
    (leBytes 8 (status + q.gen.toNat * 2 ^ 16 + written * 2 ^ 32)) s

/-- Whether a request has taken effect: its reply is on its way (R428). -/
def tookEffect (s : State) (v : Nat) (q : ServReq) : Bool :=
  match q.slot with
  | some n => ((slotAt s (0x400 + v) n).map MSlot.isSend).getD true
  | none => false

/-- Whether a request waits for its data. -/
def awaitsData (s : State) (v : Nat) (q : ServReq) : Bool := q.slot.isSome && !tookEffect s v q

/-- Whether the data of a request is complete. -/
def dataThere (s : State) (v : Nat) (q : ServReq) : Bool :=
  match q.slot with
  | some n => ((slotAt s (0x400 + v) n).map (fun m => m.st == .complete)).getD false
  | none => false

/-- Whether a server tile on the S-die of stack `m` reaches the one of stack `n`: every link of some way is up (R413, R421). -/
def sdieReach (s : State) (m n : Nat) : Bool :=
  m == n || (wayUp s [m, n] && (m / 2 == n / 2 || [true, false].any (fun cw => wayUp s (ringWay cw (n / 2) 3 (m / 2)))))

/-- Whether the homes of the `n` bytes from an offset of a window on can be reached from a server tile (R428, R431). -/
def spanReach (s : State) (v : Nat) (w : W64) (o n : Nat) : Bool :=
  (upTo (n / 4096 + 2) (fun i => Nat.min (o + 4096 * i) (o + n - 1))).all (fun x =>
    sdieReach s (v / 4) (((winPlace w x).1 - 0x400) / 4))

/-- Whether a request can reach every byte it reads or writes: where rows are homed on other server tiles, the server fetches or
writes them there, which waits while no way there is up (R428; log entry 109). A refused request reaches none. -/
def rowsReach (s : State) (v : Nat) (q : ServReq) : Bool :=
  let b := q.bytes
  rqStatus s q != 0
    || ((rqRowOffsets b).all (fun o => spanReach s v (rqEntry s q false) o (rqRowBytes b))
      && (rqOp b != 4 || spanReach s v (rqEntry s q true) (rqDstOffset b) (outSize b)))

/-- The blocks of 4 KiB of HBM in which the `n` bytes from an offset of a window on lie. -/
def spanBlocks (w : W64) (o n : Nat) : List Nat :=
  (upTo (n / 4096 + 2) (fun i => Nat.min (o + 4096 * i) (o + n - 1))).map (fun x => hbmAddr w (x / 4096 * 4096))

/-- The blocks of HBM that a request reads, and those that it writes. -/
def rqBlocks (s : State) (q : ServReq) : List Nat × List Nat :=
  let b := q.bytes
  let rows := (rqRowOffsets b).flatMap (fun o => spanBlocks (rqEntry s q false) o (rqRowBytes b))
  match rqOp b with
  | 0 | 2 => (rows, [])
  | 4 => (rows, spanBlocks (rqEntry s q true) (rqDstOffset b) (outSize b))
  | _ => ([], rows)

/-- Whether two requests may share a byte that one of them writes: their order stands (R428). -/
def mayShare (s : State) (a b : ServReq) : Bool :=
  let x := rqBlocks s a
  let y := rqBlocks s b
  x.2.any (fun n => y.1.contains n || y.2.contains n) || y.2.any (fun n => x.1.contains n)

/-- The place of the first active request of an opcode that may go on: requests of one stream take effect in stream order on what
they share, and post their receives in it (R428). -/
def nextReq (s : State) (v op : Nat) : Option (Nat × ServReq) :=
  let act := (serverOf s v).active
  ((act.zipIdx).find? (fun p =>
    let q := p.1
    let before := (act.take p.2).filter (fun x => x.src == q.src && x.job == q.job)
    q.checked && rqOp q.bytes == op && !tookEffect s v q && rowsReach s v q &&
      (if (op == 1 || op == 3) && q.slot.isNone then before.all (fun x => x.slot.isSome || rqOp x.bytes == 0 || rqOp x.bytes == 2 || rqOp x.bytes == 4)
       else before.all (fun x => tookEffect s v x || !mayShare s x q) && (!awaitsData s v q || dataThere s v q)))).map (fun p => (p.2, p.1))

/-- An active request is taken before those ahead of it, where it shares nothing with those of its stream (R428): with requests that
share no byte the order is free. -/
def hurryReq (v i : Nat) (s : State) : State :=
  let act := (serverOf s v).active
  match act[i]? with
  | none => s
  | some q =>
    if rqOp q.bytes = 1 ∨ rqOp q.bytes = 3 ∨ !q.checked ∨ (act.take i).any (fun x => x.src == q.src && x.job == q.job && (!x.checked || mayShare s x q)) then s
    else setServer s v { serverOf s v with active := q :: act.eraseIdx i }

/-- Check the next request of an opcode and let it act, or refuse it (R426). -/
def serve (v op : Nat) (act : Nat → ServReq → State → State) (s : State) : Option State :=
  match nextReq s v op with
  | none => none
  | some (i, q) =>
    if q.slot.isSome then some (act i q s)
    else
      let st := rqStatus s q
      some (if st ≠ 0 then statusReply v i q st 0 s else act i q s)

/-- READ and GATHER (R424). -/
def serveRead (v i : Nat) (q : ServReq) (s : State) : State :=
  reply v i q (rqTag q.bytes) (convOut (rqConv q.bytes) (readRows s q)) s

/-- The receive that a WRITE or REDUCE posts (R424). -/
def postData (v i : Nat) (q : ServReq) (s : State) : State :=
  let e := 0x400 + v
  let n := newSlot s e
  let size := if rqOp q.bytes = 3 then rqTotal q.bytes else msgSize (rqConv q.bytes) (rqTotal q.bytes)
  let m := unitSlot .recv q.src (BitVec.ofNat 24 (rqTag q.bytes)) 0xFFF q.job size []
  postReceive e n n m (putReq v i { q with slot := some n } s)

/-- The stored bytes and the status of the data of a WRITE (R424). -/
def writeData (b : List Byte) (m : MSlot) : List Byte × Nat :=
  let got := Mem.readN m.stash 0 m.dlvLen
  let trunc := m.status = 1
  if rqConv b = 2 then
    let (bs, ok) := decodeStream (rqTotal b / 64) got
    (bs, if !ok then 15 else if trunc then 1 else 0)
  else
    let bs := match convTypes (rqConv b) with
      | some (a, c) => convBytes c a got
      | none => got
    (bs, if trunc then 1 else if m.dlvLen < m.len then 15 else 0)

/-- The data of a WRITE or REDUCE is applied and its status reply sent (R424, R428). -/
def applyData (v i : Nat) (q : ServReq) (s : State) : State :=
  let e := 0x400 + v
  match q.slot with
  | none => postData v i q s
  | some n =>
    match slotAt s e n with
    | none => dropReq v i s
    | some m =>
      if m.status = 4 then dropReq v i (dropSlot e n s)
      else
        let (bs, st) := writeData q.bytes m
        let es := elemSize q.bytes
        let bs := bs.take (bs.length / es * es)
        let s := dropSlot e n (if rqOp q.bytes = 3 then reduceRows s q bs else writeRows s q bs)
        statusReply v i q st bs.length s

/-- CONVERT (R424, R425). -/
def serveConvert (v i : Nat) (q : ServReq) (s : State) : State :=
  let b := q.bytes
  let rows := readRows s q
  let (bs, ok) := if rqConv b = 2 then decodeStream (rqTotal b / 64) rows else (convOut (rqConv b) rows, true)
  statusReply v i q (if ok then 0 else 15) bs.length
    { s with hbm := writeWin (rqEntry s q true) (rqDstOffset b) bs s.hbm }

def tryRead (v : Nat) (s : State) : Option State := serve v 0 (serveRead v) s
def tryWrite (v : Nat) (s : State) : Option State := serve v 1 (applyData v) s
def tryGather (v : Nat) (s : State) : Option State := serve v 2 (serveRead v) s
def tryReduce (v : Nat) (s : State) : Option State := serve v 3 (applyData v) s
def tryConvert (v : Nat) (s : State) : Option State := serve v 4 (serveConvert v) s

def execRead (v : Fin 32) (s : State) : Out := .next (orStay s (tryRead v.val s))
def execWrite (v : Fin 32) (s : State) : Out := .next (orStay s (tryWrite v.val s))
def execGather (v : Fin 32) (s : State) : Out := .next (orStay s (tryGather v.val s))
def execReduce (v : Fin 32) (s : State) : Out := .next (orStay s (tryReduce v.val s))
def execConvert (v : Fin 32) (s : State) : Out := .next (orStay s (tryConvert v.val s))

/-- A request of the 256 places whose descriptor is there: one whose reply fields cannot be read is counted and gets no reply,
and one of an unknown opcode is refused (R426). -/
def checkRequest (v i : Nat) (q : ServReq) (s : State) : State :=
  if !replyOk s q then
    let s := dropReq v i s
    { s with ls := { s.ls with badReplies := s.ls.badReplies + 1 } }
  else
    let s := putReq v i { q with checked := true } s
    if 5 ≤ rqOp q.bytes then statusReply v i { q with checked := true } 15 0 s else s

/-- The requests of a client that leaves complete with PEER_FAULT (R429), but for those that have taken effect: a receive for their
data is given up, and a status reply goes where one can still be sent. -/
def leaveRequests (v : Nat) (peer : W32) (id : Option (BitVec 16)) (s : State) : State :=
  let gone (s : State) (q : ServReq) : Bool := q.src == peer && ofJob id q.job && !tookEffect s v q
  let x := serverOf s v
  let qs := (x.active ++ x.queued).filter (gone s)
  let s := setServer s v { x with active := x.active.filter (fun q => !gone s q), queued := x.queued.filter (fun q => !gone s q) }
  qs.foldl (fun s q =>
    let s := match q.slot with | some n => dropSlot (0x400 + v) n s | none => s
    if q.recv.isSome || !replyOk s q || rqReply q.bytes == peer then s
    else (unitSend (0x400 + v) (rqReply q.bytes)
      (BitVec.ofNat 24 (rqTag q.bytes + if rqOp q.bytes = 0 ∨ rqOp q.bytes = 2 then 0x800000 else 0))
      (BitVec.ofNat 12 (rqGroup q.bytes)) q.job (leBytes 8 (4 + q.gen.toNat * 2 ^ 16)) s).2) s

/-- A peer leaves one job, or all (R276): its transfers in progress end; its requests end at a server tile (R429); its RTS and
STUB records are discarded. -/
def peerLeaves (e : Nat) (peer : W32) (id : Option (BitVec 16)) (s : State) : State :=
  let s := (slotList s e).foldl (slotLeave e peer id) s
  let s := modMsg e (fun ms => { ms with hdrs := ms.hdrs.filter (fun h =>
    !(h.pkt.src == peer && ofJob id h.pkt.job && (h.stub || h.pkt.kind == .rts))) }) s
  if 0x400 ≤ e ∧ e < 0x420 then leaveRequests (e - 0x400) peer id s else s

/-- PEER_LEAVE (R276): the peer leaves every job that it shares with the unit. -/
def execPeerLeave (e : BitVec 16) (peer : W32) (s : State) : Out :=
  if !validEng e.toNat then .fault .noSuchUnit else .next (peerLeaves e.toNat peer none s)

/-- SERVER_DISPATCH (R429): a request that has its place is looked at once its descriptor has arrived; otherwise the first queued
one takes a place, in match order. -/
def tryServerDispatch (v : Nat) (s : State) : Option State :=
  let x := serverOf s v
  match x.active.zipIdx.find? (fun p => !p.1.checked && p.1.recv.isNone) with
  | some (q, i) => some (checkRequest v i q s)
  | none =>
    match x.queued with
    | [] => none
    | q :: rest =>
      if 256 ≤ x.active.length then none
      else
        let s := setServer s v { x with queued := rest, active := x.active ++ [q] }
        some (if q.recv.isNone then checkRequest v x.active.length q s else s)

def execServerDispatch (v : Fin 32) (s : State) : Out := .next (orStay s (tryServerDispatch v.val s))

end Sys2Proof.Machine
end

