-- ==== Sys2Proof/Machine/Jobs.lean ====
section
/-! DEFINITION. What the lightship does with jobs: replies and notices (R446, R448), parking and restoring (R450 to R456), the
end of a job, tiles that fail (R445, R460), space in the stacks (R432, R452) and the moves of windows (R462, R463). -/

namespace Sys2Proof.Machine

/-! ## Replies -/

/-- The reply to a management request (R446): status, reason, and what follows. -/
def lsReply (host : W32) (tag : BitVec 24) (code reason : Nat) (bs : List Byte) (s : State) : State :=
  lsSend host tag 0xFFFF (leBytes 8 (code + reason * 256) ++ bs) s

/-- Whether a duty is a management request. -/
def Duty.isRequest : Duty → Bool
  | .request _ => true
  | _ => false

/-- Whether a management request in service, or one that came before, still waits: requests are served one at a time, in match
order (R446). -/
def serveBusy (s : State) (x : Duty) : Bool := ((s.ls.deferred.filter Duty.isRequest).head?).any (fun y => y != x)

/-- Keep a request until what it waits for has happened. -/
def deferReq (i : Duty) (s : State) : State := { s with ls := { s.ls with deferred := s.ls.deferred ++ [i] } }

/-- Keep the request in service until the jobs it waits for have parked: it stays before those that came after it. -/
def deferFirst (i : Duty) (s : State) : State := { s with ls := { s.ls with deferred := i :: s.ls.deferred } }

/-- A deferred request is taken up again. -/
def undefer (i : Duty) (s : State) : State := { s with ls := { s.ls with deferred := s.ls.deferred.erase i } }

/-- A management request is served for the hosts of the management list alone, and in its turn (R446). -/
def hostServe (c : MgmtCmd) (f : State → State) (s : State) : State :=
  if !s.ls.hosts.contains c.host then s
  else if serveBusy s (.request c) then (if s.ls.deferred.contains (.request c) then s else deferReq (.request c) s)
  else f (undefer (.request c) s)

/-- The jobs that have not ended (R450). -/
def liveJobs (s : State) : List Job := (s.ls.jobs.toList.filterMap (fun x => x)).filter (fun j => j.st != .ended)

/-- The job of an id that has not ended. -/
def liveJob (s : State) (id : BitVec 16) : Option Job := (liveJobs s).find? (fun j => j.id == id)

/-- The resident slot of a job that has not ended (R449). -/
def jobSlot (s : State) (id : BitVec 16) : Nat :=
  ((List.range 4).find? (fun i => match vget s.ls.jobs i none with
    | some j => j.id == id && j.st != .ended
    | none => false)).getD 0

/-- A notice to every tile of a job (R448). -/
def notice (code val : Nat) (s : State) (j : Job) : State :=
  (jobTiles s j.id).foldl (fun s r => lsSend (unitRank s r) (BitVec.ofNat 24 code) j.id (leBytes 8 val) s) s

/-- A notice to some jobs. -/
def notices (code val : Nat) (js : List Job) (s : State) : State := js.foldl (notice code val) s

/-- Report to the lightship (R399, R467): a unit of the tile map and a reason or temperature. -/
def report (key why : Nat) (s : State) : State := { s with ls := { s.ls with reports := s.ls.reports ++ [(key, why)] } }

/-- Mark a unit in the tile map (R461). -/
def markMap (u : MapUnit) (why : Nat) (s : State) : State :=
  { s with ls := { s.ls with tileMap := SMap.insert s.ls.tileMap (mapKey u) why } }

/-! ## Space in the stacks (R432, R452) -/

/-- The stacks of a mask. -/
def maskStacks (mask : Nat) : List Nat := (List.range 8).filter (fun m => mask / 2 ^ m % 2 == 1)

/-- The tiles of a partition in number. -/
def partSize (j : Job) : Nat := (partClusters j.rects).length * 8

/-- The units of 16 KiB that some pages of 4 KiB take in each of `c` stacks. -/
def unitsOf (pages c : Nat) : Nat := ceilDiv (ceilDiv pages c) 4

/-- The ranges of a stack that are in use, in units of 16 KiB. -/
def usedRanges (s : State) (m : Nat) : List (Nat × Nat) :=
  (liveJobs s).flatMap (fun j =>
    (j.allot.filter (fun a => a.1 == m)).map (fun a => a.2)
    ++ (match j.saveBase with
      | some (mask, base) =>
        if (maskStacks mask).contains m then [(base, base + unitsOf (partSize j * 1024) (maskStacks mask).length)] else []
      | none => []))

/-- The lowest base at which `n` units are free in every stack of a list. -/
def firstBase (s : State) (ms : List Nat) (n : Nat) : Option Nat :=
  let used := ms.flatMap (usedRanges s)
  (sortBy (fun a b => decide (a < b)) (0 :: used.map Prod.snd)).find? (fun c =>
    decide (c + n ≤ 2 ^ 22) && used.all (fun u => decide (c + n ≤ u.1 ∨ u.2 ≤ c)))

/-- Whether a stack takes new allotments (R462). -/
def stackOpen (s : State) (m : Nat) : Bool := vget s.ls.dies (m / 2) .online == .online

/-- Free space for some pages, in one stack where there is room, else in several: mask and base. -/
def room (s : State) (pages : Nat) : Option (Nat × Nat) :=
  (sortBy (fun a b => decide ((maskStacks a).length < (maskStacks b).length)) ((List.range 256).drop 1)).findSome? (fun mask =>
    let ms := maskStacks mask
    if ms.all (stackOpen s) then (firstBase s ms (unitsOf pages ms.length)).map (fun b => (mask, b)) else none)

/-! ## Parking and restoring (R450 to R456) -/

/-- The word of a command in LSCMD (R453). -/
def lsWord (cmd slot p : Nat) : W64 := BitVec.ofNat 64 (cmd + slot * 16 + p * 65536)

/-- The index of a tile in its partition (R453). -/
def partIndex (j : Job) (r : Nat) : Nat := ((partTiles j.rects).findIdx? (fun x => x == r)).getD 0

/-- PREEMPT_RAISE (R220): PREEMPT on one tile; with at_phase it waits at most 15,000,000 clk (R455). -/
def raisePreempt (j : Job) (slot : Nat) (s : State) (r : Nat) : State :=
  modTile s r (fun t =>
    let t := setEvent 38 { t with ctrl := { t.ctrl with lscmd := lsWord 1 slot (partIndex j r) } }
    { t with keeper := { t.keeper with
      preemptBy := if j.atPhase && !t.keeper.halted then some (s.cycle + 15000000) else none } })

/-- Park a RUNNING job (R446, R450), none where it cannot be given a save window (R452). -/
def parkJob (s : State) (j : Job) : Option State :=
  (room s (partSize j * 1024)).map (fun sb =>
    let rs := jobTiles s j.id
    let s := modJob j.id (fun j => { j with
      saveBase := some sb, toAck := rs, st := if rs.isEmpty then .parked else j.st }) s
    rs.foldl (raisePreempt j (jobSlot s j.id)) s)

/-- The lightship's command in LSCMD of a tile of a job (R453): 3 kill, 4 debug. A park or restore that the tile has yet to
acknowledge stands. -/
def sendCommand (cmd : Nat) (id : BitVec 16) (s : State) (r : Nat) : State :=
  match s.ls.jobs.toList.filterMap (fun x => x) |>.find? (fun j => j.id == id && j.st != .ended) with
  | some j =>
    modTile s r (fun t =>
      if jobOf t = id ∧ (cmd = 3 ∨ (fld t.ctrl.lscmd 0 4 ≠ 1 ∧ fld t.ctrl.lscmd 0 4 ≠ 2)) then
        { t with ctrl := { t.ctrl with lscmd := lsWord cmd (jobSlot s id) (partIndex j r) } }
      else t)
  | none => s

/-- A restore command to one tile (R456). A keeper that is no longer in the station handler enters it anew. Until its TRET the
job's lamps stand and its commands do not start, as at its park (R99, R455). -/
def raiseRestore (j : Job) (slot : Nat) (s : State) (r : Nat) : State :=
  modTile s r (fun t =>
    let t := { t with ctrl := { t.ctrl with lscmd := lsWord 2 slot (partIndex j r) }, lampsStopped := true,
                      keeper := { t.keeper with preempted := true } }
    if t.keeper.station ∧ t.keeper.started then t
    else { t with keeper := { t.keeper with
      station := true, started := true, halted := false, waiting := none, ticket := none, pc := 0x1F0000,
      issueAt := s.cycle } })

/-- Set the lens weights of a job's tiles, with full credits (R321, R442). -/
def setWeights (j : Job) (s : State) : State :=
  j.placed.foldl (fun s p => modLens s (clusterOf p.rank) (fun l => { l with
    weights := vset l.weights (posOf p.rank) p.weight, credits := vset l.credits (posOf p.rank) p.weight })) s

/-- Restore a PARKED job on the same tiles (R446, R450). -/
def restoreJob (s : State) (j : Job) : State :=
  let rs := jobTiles s j.id
  let s := modJob j.id (fun j => { j with
    toAck := rs, restore := false, st := if rs.isEmpty then .running else j.st }) s
  rs.foldl (raiseRestore j (jobSlot s j.id)) (setWeights j s)

/-- Whether a job holds the tiles of its partition: it is LOADING or RUNNING, or it is being restored (R450, R451). -/
def Job.onTiles (j : Job) : Bool := j.st == .loading || j.st == .running || (j.st == .parked && !j.toAck.isEmpty)

/-- The jobs that hold some clusters, but for one (R451). -/
def blockers (s : State) (id : BitVec 16) (cs : List Nat) : List Job :=
  (liveJobs s).filter (fun j => j.id != id && j.onTiles && (partClusters j.rects).any (fun c => cs.contains c))

/-- Whether no tile of a job holds the parked context of another job that has not ended: a tile holds one at most (R451). -/
def roomToPark (s : State) (j : Job) : Bool :=
  j.placed.all (fun p => match (tileOf s p.rank).parked with
    | some (id, _) => id == j.id || (liveJob s id).isNone
    | none => true)

/-- Whether a job may be parked for one of a priority (R451). -/
def mayPark (s : State) (prio : Nat) (j : Job) : Bool :=
  j.st == .running && decide (j.prio < prio) && roomToPark s j

/-- Park the jobs of a list that are not yet parking, none where one cannot be parked (R451, R452). -/
def parkAll (js : List Job) (s : State) : Option State :=
  (js.filter (fun j => j.st == .running && j.toAck.isEmpty)).foldl (fun x j =>
    x.bind (fun s => if roomToPark s j then parkJob s j else none)) (some s)

/-- Whether every job that was told to park has parked. -/
def parkingDone (s : State) : Bool := (liveJobs s).all (fun j => !(j.st == .running && !j.toAck.isEmpty))

/-! ## The end of a job (R445, R446, R450) -/

/-- Dies that have no tile of a job left go OFFLINE (R462). -/
def settleDies (s : State) : State :=
  let gone := s.ls.leaving.filter (fun d => (liveJobs s).all (fun j => j.placed.all (fun p => p.rank / 256 != d)))
  { s with ls := { s.ls with
    leaving := s.ls.leaving.filter (fun d => !gone.contains d),
    dies := gone.foldl (fun v d => vset v d .offline) s.ls.dies } }

/-- The engine context of a job that has ended: nothing is queued and no request goes on; what has completed stays readable. -/
def endContext (e : EngineCtx) : EngineCtx :=
  { e with copyQ := [], lensQ := [], flashQ := [], scanQ := [], pool := [], slots := e.slots.filter (fun p => !p.2.busy) }

/-- A tile after the end of a job: it runs no more, the job's records are gone from it, and a parked context of the job is
discarded. Registers, lamps and memory stay as they are until the next launch. -/
def clearTile (now : Nat) (id : BitVec 16) (t : Tile) : Tile :=
  let mine := (t.parked.map Prod.fst) == some id
  let t := { t with
    msg := { t.msg with
      hdrs := t.msg.hdrs.filter (fun h => h.pkt.job != id), sends := t.msg.sends.filter (fun x => x.job != id),
      recvs := t.msg.recvs.filter (fun x => x.job != id), reasm := t.msg.reasm.filter (fun x => x.pkt.job != id),
      inbox := t.msg.inbox.filter (fun p => p.2.job != id) } }
  let t := if mine then { t with parked := none, saved := LampSet.reset, free := t.free ++ savedBlocks t.saved } else t
  if jobOf t ≠ id then t
  else
    { pauseLamps now t with
      keeper := { t.keeper with started := false, halted := true, waiting := none, ticket := none, debugHalt := false },
      loanQ := [], takeQ := [], passQ := [], lstarts := [], lampsStopped := true,
      eng := endContext t.eng, stCopy := none, stLens := none, stFlash := none, copyRun := none, failing := [], ckpt := none,
      mismatch := false, imageDone := false, imageSent := 0 }

/-- The banks of a cluster that a parked job's queued ACC.ALLOC commands have reserved (R347, R454), of the jobs that `f` takes. -/
def parkedBanks (s : State) (c : Nat) (f : BitVec 16 → Bool) : List Nat :=
  (List.range 8).flatMap (fun p => match (tileOf s (tileAt c p)).parked with
    | some (id, e) => if f id then (e.lensQ.filter (fun k => k.op == 0x79)).flatMap cmdBanks else []
    | none => [])

/-- A lens without the commands, rows and banks of its job; the words stay, and so do the banks that a parked job has reserved
(R347). -/
def clearLens (keep : List Nat) (l : Lens) : Lens :=
  { Lens.reset with
    words := l.words, freeAt := l.freeAt, rowOpAt := l.rowOpAt, bad := l.bad,
    banks := l.banks.filter (fun p => p.2.st == .reserved && keep.contains p.1) }

/-- The lens of a cluster as a job leaves or takes it. -/
def clearCluster (id : BitVec 16) (s : State) (c : Nat) : State :=
  modLens s c (clearLens (parkedBanks s c (fun x => x != id && (liveJob s x).isSome)))

/-- The lens of a cluster where a parked job ends: what the job has reserved is free, and, where no other job holds the cluster, the
banks that it still held. -/
def leaveCluster (id : BitVec 16) (s : State) (c : Nat) : State :=
  if (blockers s id [c]).isEmpty then clearCluster id s c
  else
    let mine := parkedBanks s c (fun x => x == id)
    modLens s c (fun l => { l with banks := l.banks.filter (fun p => !(p.2.st == .reserved && mine.contains p.1)) })

/-- A server tile without the requests, records and streams of a job; the pool units of its records are free (R275, R429). -/
def clearServer (id : BitVec 16) (v : Server) : Server :=
  let gone := (v.msg.hdrs.filter (fun h => h.pkt.job == id)).flatMap (fun h => h.units)
  { v with
    queued := v.queued.filter (fun q => q.job != id), active := v.active.filter (fun q => q.job != id),
    eng := { v.eng with pool := v.eng.pool.filter (fun u => !gone.contains u) },
    msg := { v.msg with hdrs := v.msg.hdrs.filter (fun h => h.pkt.job != id),
                        sends := v.msg.sends.filter (fun x => x.job != id),
                        recvs := v.msg.recvs.filter (fun x => x.job != id) } }

/-- End a job (R445, R446): its transfers with server tiles and with the lightship end (R276); the result goes to the host that loaded it; partition, banks, allotments and slot are free. -/
def endJob (id : BitVec 16) (result : W64) (s : State) : State :=
  match liveJob s id with
  | none => s
  | some j =>
    let s := (partClusters j.rects).foldl (fun s c => if j.onTiles then clearCluster id s c else leaveCluster id s c) s
    let s := j.placed.foldl (fun s p => (lsRank :: upTo 32 (fun v => 0x400 + v)).foldl (fun s e =>
      peerLeaves e (unitRank s p.rank) (some id) s) s) s
    let s := j.placed.foldl (fun s p =>
      let s := if p.duplex then modTile s (p.rank + 1) (fun t => { t with duplex := .solo }) else s
      modTile s p.rank (clearTile s.cycle id)) s
    let s := { s with domains := s.domains.filter (fun x => x.job != id), servers := SMap.mapVals s.servers (fun _ => clearServer id) }
    let s := modJob id (fun j => { j with st := .ended, result := some result, allot := [], saveBase := none, saveLost := false, toAck := [] }) s
    settleDies (lsSend j.host j.tag 0xFFFF (leBytes 8 0 ++ leBytes 8 result.toNat) s)

/-! ## Done words (R445) -/

/-- A done word is sent on to its parent in the boot tree, where it is kept; the lightship ends the job with the last one. -/
def tryDoneWord (p c : Nat) (s : State) : Option State :=
  match (liveJobs s).find? (fun j => j.st == .running && (childrenOf j p).contains c && wordsIn j c && !j.sent.contains c) with
  | none => none
  | some j =>
    let w := combineWords (wordsAt j c)
    let s := modJob j.id (fun j => { j with words := j.words ++ [(p, c, w)], sent := j.sent ++ [c] }) s
    if p ≠ lsRank then some s
    else match liveJob s j.id with
      | some j => some (if wordsIn j lsRank then endJob j.id (combineWords (wordsAt j lsRank)) s else s)
      | none => some s

/-- DONE_WORD (R445). -/
def execDoneWord (parent child : BitVec 16) (s : State) : Out := .next (orStay s (tryDoneWord parent.toNat child.toNat s))

/-! ## Failures (R276, R445, R460) -/

/-- A LOADING job of which every tile has started is RUNNING (R450). -/
def settleLoading (id : BitVec 16) (s : State) : State :=
  modJob id (fun j =>
    if j.st = .loading ∧ j.placed.all (fun p => j.left.contains p.rank || (tileOf s p.rank).keeper.started) then
      { j with st := .running } else j) s

/-- A tile leaves a job (R276) with a word of the lightship (R445); nothing waits for its acknowledgement. -/
def leaveJob (r code : Nat) (s : State) (j : Job) : State :=
  let peers := (jobTiles s j.id).filter (fun x => x != r)
  let s := sendLeaf j.id r (BitVec.ofNat 64 (code * 2 ^ 48)) s
  let s := modJob j.id (fun j => ackJob (if j.st = .running then 1 else 2) r { j with left := j.left ++ [r] }) s
  let s := (peers ++ lsRank :: upTo 32 (fun v => 0x400 + v)).foldl (fun s e => peerLeaves e (unitRank s r) (some j.id) s) s
  settleLoading j.id s

/-- TILE_FAILURE (R460): the tile halts as under DHALT and leaves its jobs. -/
def failTile (code : Nat) (s : State) (r : Nat) : State :=
  let js := (liveJobs s).filter (fun j => j.placed.any (fun p => p.rank == r) && !j.left.contains r)
  js.foldl (leaveJob r code) (debugHalt r s)

/-- The rank whose record holds a tile, and whether a job has placed it. -/
def placedHere (s : State) (r : Nat) : Bool := (liveJobs s).any (fun j => j.placed.any (fun p => p.rank == r))

/-- A soft error found by a tile in structure 0 SRAM, 1 workspace, 2 accumulator memory, at a granule address, a register slot
or a row (R223, R224, R460). The tile that reports an error of accumulator memory alone shows bit 34 (log entry 105); no later
read delivers what the granule or row holds. -/
def softErrorAt (r : TileId) (st : Fin 3) (a : Nat) (unc : Bool) (s : State) : State :=
  let h := holder s r.val
  if !unc then
    modTile s h (fun t => { t with ctrl := { t.ctrl with
      eccstat := putFld t.ctrl.eccstat 0 32 (Nat.min (fld t.ctrl.eccstat 0 32 + 1) 0xFFFFFFFF) } })
  else
    let s := modTile s h (fun t => { t with
      ctrl := { t.ctrl with eccstat := putBit t.ctrl.eccstat (32 + st.val) true },
      bad := if st = 0 then t.bad ++ [a / 16 * 16] else t.bad,
      badWs := if st = 1 then t.badWs ++ [a] else t.badWs })
    if st.val < 2 then failTile 0x8002 (report r.val 1 (markMap (.tile r.val) 1 s)) h
    else
      let c := clusterOf r.val
      let s := modLens s c (fun l => { l with bad := l.bad ++ [a] })
      ((upTo 8 (tileAt c)).filter (placedHere s)).foldl (failTile 0x8002) (report (2048 + c) 1 (markMap (.lens c) 1 s))

/-- A duplex pair as a tile with an uncorrectable error (R222, R460). -/
def failPair (h : Nat) (s : State) : State := failTile 0x8002 (report h 1 (markMap (.tile (h + 1)) 1 (markMap (.tile h) 1 s))) h

/-- A compare mismatch in a duplex pair (R222): with the checkpoint open the pair stops for its rollback, otherwise it is
treated as a tile with an uncorrectable error. -/
def mismatchAt (r : TileId) (s : State) : State :=
  let h := holder s r.val
  let t := tileOf s h
  if t.duplex = .solo then s
  else if t.ckpt.isSome then modTile s h (fun t => { pauseLamps (s.cycle + 1) t with mismatch := true })
  else failPair h s

/-! ## Rollback of a duplex pair (R222) -/

/-- The state that the checkpoint keeps, restored. -/
def rollBack (t : Tile) : Tile :=
  match t.ckpt with
  | none => t
  | some c =>
    { t with
      keeper := { c.keeper with started := true },
      ctrl := { c.ctrl with strapcause := t.ctrl.strapcause, strappc := t.ctrl.strappc, strapval := t.ctrl.strapval,
                            lscmd := t.ctrl.lscmd, scratch := t.ctrl.scratch },
      sram := c.granules.foldl (fun m p => Mem.setGranule m p.1 p.2) t.sram,
      ws := c.slots.foldl (fun m p => SMap.insert m p.1 p.2) t.ws,
      act := c.lamps, free := c.free, loanQ := [], takeQ := [], passQ := [], lstarts := [], freezes := [],
      eng := { t.eng with tok := Vector.replicate 64 0, copyQ := [], lensQ := [], flashQ := [], scanQ := [] },
      mismatch := false,
      ckpt := some { c with granules := [], slots := [] } }

/-- Whether a pair stopped by a mismatch can go on: its copy commands have completed, or its log has filled meanwhile. -/
def rollbackReady (t : Tile) : Bool := t.mismatch && (t.ckpt.isNone || (t.copyRun.isNone && t.failing.isEmpty && t.eng.copyQ.isEmpty))

/-- DUPLEX_ROLLBACK (R222): the checkpoint is restored once the copy commands in flight have completed; where the log has
filled meanwhile the pair halts. -/
def execDuplexRollback (r : TileId) (s : State) : Out :=
  let t := tileOf s r
  .next (if !rollbackReady t then s
    else if t.ckpt.isSome then modTile s r.val rollBack
    else failPair r.val (modTile s r.val (fun t => { t with mismatch := false })))

/-! ## Windows of a die that goes (R462, R463) -/

/-- Whether a window uses a stack of a die. -/
def touches (d : Nat) (w : W64) : Bool :=
  wValid w && !wLost w && (wStacks w).any (fun m => m / 2 == d)

/-- Whether window `n` of some table of a job uses a stack of a die. -/
def Job.touches (d : Nat) (j : Job) (n : Nat) : Bool :=
  (j.cur :: j.staged :: j.old.toList).any (fun tb => Machine.touches d (tb.getD n 0))

/-- The live jobs with a window on a die, of any of their tables, or with their save window there (R433, R452). -/
def touchers (s : State) (d : Nat) : List Job :=
  (liveJobs s).filter (fun j => (List.range 64).any (j.touches d) || touches d (saveEntry j))

/-- The window offset of an address of the package's HBM, none outside the window (R431). -/
def winOffset (w : W64) (a : Nat) : Option Nat :=
  let ss := wStacks w
  match ss.findIdx? (fun m => m == a / 2 ^ 36) with
  | none => none
  | some i =>
    let x := a % 2 ^ 36
    if x < wBase w * 16384 then none
    else
      let y := x - wBase w * 16384
      let o := (y / 4096 * ss.length + i) * 4096 + y % 4096
      if o < wLimit w * 4096 then some o else none

/-- The bytes of a window copied to its new place, at the same offsets (R462). -/
def moveBytes (w w' : W64) (m : Mem) : Mem :=
  let rest := m.filter (fun p => (winOffset w' p.1).isNone)
  m.foldl (fun acc p => match winOffset w p.1 with
    | some o => Mem.write acc (hbmAddr w' o) p.2
    | none => acc) rest

/-- A window moved to free space: the state with its bytes there, its new entry and the allotments it takes; none where space is
short. -/
def moveEntry (w : W64) (s : State) : Option (State × W64 × List (Nat × Nat × Nat)) :=
  (room s (wLimit w)).map (fun (mask, base) =>
    let w' := putFld (putFld w 51 8 mask) 0 22 base
    let hi := base + unitsOf (wLimit w) (maskStacks mask).length
    ({ s with hbm := moveBytes w w' s.hbm }, w', (maskStacks mask).map (fun m => (m, base, hi))))

/-- Move one window of a job, in the current and the staged table, none where space is short; then it is marked lost if it may be
(R463). -/
def moveWindow (d : Nat) (lossy : Bool) (id : BitVec 16) (x : Option State) (n : Nat) : Option State :=
  x.bind (fun s => match liveJob s id with
    | none => some s
    | some j =>
      let w := j.cur.getD n 0
      let v := j.staged.getD n 0
      let put (staged : Bool) (w : W64) (as : List (Nat × Nat × Nat)) (s : State) : State :=
        modJob id (fun j => { j with
          cur := if staged then j.cur else j.cur.set n w,
          staged := if staged || v == j.cur.getD n 0 then j.staged.set n w else j.staged, allot := j.allot ++ as }) s
      let one (staged : Bool) (w : W64) (s : State) : Option State :=
        if !touches d w then some s
        else match moveEntry w s with
          | some (s, w', as) => some (put staged w' as s)
          | none => if lossy then some (put staged (putBit w 62 true) [] s) else none
      if v == w then one false w s else (one false w s).bind (one true v))

/-- Move the save window of a parked job (R452, R462). -/
def moveSave (d : Nat) (lossy : Bool) (id : BitVec 16) (x : Option State) : Option State :=
  x.bind (fun s => match liveJob s id with
    | none => some s
    | some j =>
      if !touches d (saveEntry j) then some s
      else match moveEntry (saveEntry j) s with
        | some (s, w, _) => some (modJob id (fun j => { j with saveBase := some (fld w 51 8, fld w 0 22) }) s)
        | none => if lossy then some (modJob id (fun j => { j with saveLost := true }) s) else none)

/-- The windows of a table on a die, marked lost (R463). -/
def loseAll (d : Nat) (ns : List Nat) (ws : List W64) : List W64 :=
  (ws.zipIdx).map (fun p => if ns.contains p.2 ∧ touches d p.1 then putBit p.1 62 true else p.1)

/-- Windows of a job on a die are lost in all three tables, with notice 4 (R463). -/
def loseWindows (d : Nat) (ns : List Nat) (s : State) (j : Job) : State :=
  let lost := ns.filter (j.touches d)
  let s := modJob j.id (fun j => { j with
    cur := loseAll d ns j.cur, old := j.old.map (loseAll d ns), staged := loseAll d ns j.staged }) s
  if lost.isEmpty then s else notice 4 (sumN (lost.map (fun n => 2 ^ n))) s j

/-- The windows of the jobs given moved off a die: the new table becomes current as under WINCOMMIT (R437, R462), with
notice 3; lost windows are lost in all tables, with notice 4. -/
def moveJob (d : Nat) (lossy : Bool) (x : Option State) (j : Job) : Option State :=
  moveSave d lossy j.id ((List.range 64).foldl (moveWindow d lossy j.id) x) |>.map (fun s =>
    match liveJob s j.id with
    | none => s
    | some k =>
      let lost := (List.range 64).filter (fun n => wLost (k.cur.getD n 0) && !wLost (j.cur.getD n 0))
      let moved := (List.range 64).any (fun n => j.cur.getD n 0 != k.cur.getD n 0 && !lost.contains n)
      let k := { k with allot := k.allot.filter (fun a => a.1 / 2 != d) }
      let k := if moved then
          { k with old := some (loseAll d lost j.cur), staged := k.cur, gen := k.gen + 1 }
        else { k with old := k.old.map (loseAll d lost), staged := loseAll d lost k.staged }
      let s := modJob j.id (fun _ => k) s
      let s := if moved then
          notice 3 k.gen.toNat (modJobTiles k.id (fun t => { t with ctrl := { t.ctrl with wingen := winGenWord k } }) s) k
        else s
      if lost.isEmpty then s else notice 4 (sumN (lost.map (fun n => 2 ^ n))) s k)

/-- Whether a job stands still for a move of its windows: parked, and no old table held (R437, R462). -/
def stillFor (j : Job) : Bool := j.st == .parked && j.toAck.isEmpty && j.old.isNone && j.announced.isNone

/-- Whether the work on a die can go on: each job with a window there stands still or can be told to park. -/
def moveReady (s : State) (d : Nat) : Bool :=
  (touchers s d).all (fun j => stillFor j || (j.st == .running && j.toAck.isEmpty))

/-- Restore the jobs that were parked for their windows, where their clusters are free. -/
def restoreMoved (s : State) : State :=
  ((liveJobs s).filter (fun j => j.restore && j.st == .parked && j.toAck.isEmpty)).foldl (fun s j =>
    if (blockers s j.id (partClusters j.rects)).isEmpty then restoreJob s j
    else modJob j.id (fun j => { j with restore := false }) s) s

/-- What comes of the work on a die: done, to be taken up again, or short of space (R462). -/
inductive MoveResult where
  | done (s : State)
  | later (s : State)
  | short (s : State)

/-- Move the windows off a die (R462, R463): first the jobs park, then everything moves, then they go on. -/
def moveOff (d : Nat) (lossy : Bool) (s : State) : MoveResult :=
  let js := touchers s d
  let move (s : State) : Option State := js.foldl (moveJob d lossy) (some s)
  match move s with
  | none => .short (restoreMoved s)
  | some s' =>
    if js.all stillFor then .done (restoreMoved s')
    else
      match parkAll js s with
      | some s1 =>
        let mine := (js.filter (fun j => j.st == .running)).map (fun j => j.id)
        .later (mine.foldl (fun s id => modJob id (fun j => { j with restore := true }) s) s1)
      | none => if lossy then .done (restoreMoved (js.foldl (loseWindows d (List.range 64)) s)) else .short (restoreMoved s)

end Sys2Proof.Machine
end

