-- ==== Sys2Proof/Machine/Mesh.lean ====
section
/-! DEFINITION. Cells in routers and on links: injection, arbitration, ageing, escape (R371 to R380, R412), flits and their
replay (R409 to R411), the turn controller (R415 to R417). -/

namespace Sys2Proof.Machine

/-- Change a router. -/
def modRouter (k : Nat) (f : Router → Router) (s : State) : State := setRouter s k (f (routerOf s k))

/-! ## Packets without a route (R484) -/

/-- The code of a packet's kind (R252). -/
def kindCode : PktKind → Nat
  | .eager => 0
  | .rts => 1
  | .cts => 2
  | .data => 3
  | .abort => 4
  | .nack => 5
  | .ack => 6
  | .stub => 7
  | .refuse => 8

/-- Whether a packet goes from the sender of its message to the receiver (R252). -/
def fromSender (p : Packet) : Bool := p.kind == .eager || p.kind == .rts || p.kind == .data

/-- The sender and the receiver of the message that a packet belongs to. -/
def xferEnds (p : Packet) : W32 × W32 := if fromSender p then (p.src, p.dst) else (p.dst, p.src)

/-- The packets by leaf that a packet with a tree prefix stands for (R486). -/
def leafPkts (p : Packet) : List Packet :=
  if p.tree.isEmpty then [p]
  else (p.tree.filter (fun w => treeKind w.1 == 0)).map (fun w =>
    { p with dst := treeTarget w.1, seq := w.2.extractLsb' 0 32, tree := [] })

/-- The send that a packet belongs to completes PEER_FAULT, where its sender is of this package (R276). -/
def failSender (p : Packet) (s : State) : State :=
  let (a, b) := xferEnds p
  if nodeOf a ≠ s.ls.node then s
  else match (allSubs s (localOf a)).find? (fun q => q.2.2.1.job == p.job && q.2.2.1.group == p.group && q.2.2.2.dst == b
      && q.2.2.2.seq == p.seq && q.2.2.2.st != .complete) with
  | some (n, i, _, _) => endSub (localOf a) n i 4 0 s
  | none => s

/-- The receive that a packet belongs to completes PEER_FAULT, where its receiver is of this package (R276). -/
def failReceiver (p : Packet) (s : State) : State :=
  let (a, b) := xferEnds p
  if nodeOf b ≠ s.ls.node then s
  else match (slotList s (localOf b)).find? (fun q => !q.2.isSend && q.2.st == .data && q.2.src == a && q.2.seq == p.seq
      && q.2.group == p.group && q.2.job == p.job) with
  | some (n, _) => endRecv (localOf b) n 4 0 s
  | none => s

/-- The header of a packet in bytes 0 to 31 of its head cell (R372). -/
def headerBytes (p : Packet) : List Byte :=
  leBytes 4 p.src.toNat ++ leBytes 4 p.dst.toNat ++ leBytes 4 p.seq.toNat ++ leBytes 4 p.len ++ leBytes 4 p.offset
    ++ leBytes 3 p.tag.toNat ++ leBytes 2 (p.group.toNat + kindCode p.kind * 2 ^ 12) ++ leBytes 2 p.job.toNat
    ++ leBytes 1 (ofBool p.escape) ++ leBytes 4 0

/-- The transfer of one destination completes PEER_FAULT on both sides (R276, R484): a side in another package hears of it from
its lightship (log entry 113); a message of the lightships themselves ends here alone. -/
def failOne (p : Packet) (s : State) : State :=
  let (a, b) := xferEnds p
  let far (x : W32) : Bool := nodeOf x != s.ls.node && decide ((nodeOf x).toNat < 0x2000)
  let s := failReceiver p (failSender p s)
  if p.group = podGroup ∧ p.job = 0xFFFF then s
  else ((([a, b].filter far).map nodeOf).eraseDups).foldl (fun s n => podSend n (leBytes 8 2 ++ headerBytes p) s) s

/-- A packet is discarded where it has no route: the transfers that it belongs to complete PEER_FAULT (R484). -/
def failTransfer (p : Packet) (s : State) : State := (leafPkts p).foldl (fun s q => failOne q s) s

/-! ## Injection (R371, R373) -/

/-- The channel of a packet (R252, R373, R380); one that was on the escape class before a port goes on by its payload (R480). -/
def pktVc (p : Packet) : Nat :=
  if p.escape then 3
  else match p.kind with
    | .eager | .data => if p.payload.length ≤ 256 then 1 else 2
    | _ => if p.unescaped then 1 else 0

/-- The content of a packet's cells: header, tree prefix (R486), payload, and zero bytes to the end of the last cell (R371). -/
def packetBytes (p : Packet) : List Byte :=
  let bs := headerBytes p ++ p.tree.flatMap (fun e => leBytes 8 e.1.toNat ++ leBytes 8 e.2.toNat) ++ p.payload
  bs ++ List.replicate ((64 - bs.length % 64) % 64) 0

/-- The check codes of a cell's content (R371). -/
def checkCodes (bs : List Byte) : List (BitVec 8) :=
  upTo 8 (fun i => Config.secded (BitVec.ofNat 64 (leAt bs (8 * i) 8)))

/-- The cells of packet number `pid` (R371). -/
def cellsOf (pid : Nat) (p : Packet) : List Cell :=
  let n := ceilDiv (p.payload.length + 16 * p.tree.length - 32) 64
  let vc : Fin 4 := Fin.ofNat 4 (pktVc p)
  upTo (n + 1) (fun i =>
    let bs := ((packetBytes p).drop (64 * i)).take 64
    { vc := vc, head := i == 0, tail := i == n, bytes := bs, check := checkCodes bs,
      pkt := if i = 0 ∨ i = n then some p else none, pid := pid, at_ := 0 })

/-- Cells of a packet enter a node at an input, to compete from a clk on. -/
def injectAt (k port at_ : Nat) (p : Packet) (s : State) : State :=
  modRouter k (fun x =>
    let key := port * 4 + pktVc p
    let cs := (cellsOf (x.entered * 4096 + k) p).map (fun c => { c with at_ := at_ })
    { x with entered := x.entered + 1, inject := SMap.insert x.inject key (SMap.getD x.inject key [] ++ cs) }) s

/-- Cells of a packet enter a node at an input. -/
def inject (k port : Nat) (p : Packet) (s : State) : State := injectAt k port 0 p s

/-- A packet takes the fabric mode of its package at injection (R482). -/
def withMode (s : State) (p : Packet) : Packet := { p with ordered := s.ordered }

/-- A packet enters at an input with its port chosen, or has no route (R481, R484). -/
def injectRouted (k port : Nat) (p : Packet) (s : State) : State :=
  match withPort s p with
  | some p => inject k port p s
  | none => failTransfer p s

/-- The die by which the lightship's packet enters a mesh (R500). -/
def lsDie (s : State) (p : Packet) : Nat :=
  let p := (withPort s (withMode s p)).getD p
  match destKind s p with
  | (0, l) => l / 256
  | (2, m) => m / 2
  | _ => 0

/-- Take the first packet that is due at a unit's engine and passes a test. -/
def pullFrom (e : Nat) (ok : Packet → Bool) (s : State) : Option (Packet × State) :=
  match ((msgOf s e).outq.zipIdx).find? (fun q => decide (q.1.1 ≤ s.cycle) && ok q.1.2) with
  | some ((_, p), i) => some (p, modMsg e (fun ms => { ms with outq := ms.outq.eraseIdx i }) s)
  | none => none

/-- Whether a packet's channel has no cells waiting to enter at an input. -/
def entryFree (x : Router) (port : Nat) (p : Packet) : Bool := (SMap.getD x.inject (port * 4 + pktVc p) []).isEmpty

/-- The packet that enters a node next at a local input: from the tile, the lightship or a server tile (R374, R500). -/
def pullAt (k port : Nat) (s : State) : Option (Packet × State) :=
  let free (p : Packet) : Bool := entryFree (routerOf s k) port p
  if 2048 ≤ k then
    let m := k - 2048
    ([0, 1, 2, 3].filterMap (fun i => pullFrom (0x400 + 4 * m + i) free s)).head?
  else if port = 5 then pullFrom lsRank (fun p => lsDie s p == k / 256 && free p) s
  else pullFrom k free s

/-- The cells that a port of a node moves in a clk: 4 at a router; at an S-die those of the 16 edge routers of its link (R22,
R374). -/
def portCells (k : Nat) : Nat := if 2048 ≤ k then 64 else 4

/-- The cells that a local input may still take in this clk (R374, R500). -/
def feedLeft (k port now : Nat) (x : Router) : Nat := portCells k - (if x.fedClk = now then SMap.getD x.fed port 0 else 0)

/-- One waiting cell of a channel moves into an input's buffer. -/
def feedCell (port v now : Nat) (c : Cell) (rest : List Cell) (x : Router) : Router :=
  let key := port * 4 + v
  let fed := if x.fedClk = now then x.fed else []
  { x with inject := SMap.insert x.inject key rest, fedClk := now, fed := SMap.insert fed port (SMap.getD fed port 0 + 1),
           inBufs := SMap.insert x.inBufs key (SMap.getD x.inBufs key [] ++ [{ c with at_ := Nat.max c.at_ now }]) }

/-- Move waiting cells into an input's buffers, headers first, while buffers and the clk have room, with fuel for their
number. -/
def fillBuffers (k port now : Nat) : Nat → Router → Router
  | 0, x => x
  | f + 1, x =>
    if feedLeft k port now x = 0 then x
    else match [0, 3, 1, 2].findSome? (fun v =>
      match SMap.getD x.inject (port * 4 + v) [] with
      | c :: rest =>
        if meshCap v ≤ (SMap.getD x.inBufs (port * 4 + v) []).length then none else some (feedCell port v now c rest x)
      | [] => none) with
    | some x => fillBuffers k port now f x
    | none => x

/-- Fill a local input: packets come from their unit as the channels empty, with fuel for their number. -/
def refill (k port : Nat) : Nat → State → State
  | 0, s => s
  | f + 1, s =>
    let s := modRouter k (fun x => fillBuffers k port s.cycle (portCells k) x) s
    if feedLeft k port s.cycle (routerOf s k) = 0 then s
    else match pullAt k port s with
      | some (p, s) => refill k port f (injectRouted k port (withMode s p) s)
      | none => s

/-! ## Arbitration (R377 to R379) -/

/-- The link beyond a tile's port at an edge, and whether this is its A end. -/
def linkAt (k port : Nat) : Option (Nat × Bool) :=
  if 2048 ≤ k then (if port = 0 then some (k - 2048, false) else none)
  else if port < 4 && (neighbour k port).isNone then
    some (edgeLink (k / 256) port, atA (edgeLink (k / 256) port) (k / 256))
  else none

/-- Whether the next buffer of an output has room for a cell of a channel (R374, R410, R411). -/
def outRoom (s : State) (k port v : Nat) : Bool :=
  match linkAt k port with
  | some (l, a) =>
    let x := linkOf s l
    let d := dirOf x a
    x.st != .down && decide (0 < vget d.credits v 0) && decide (d.replay.length < 2048)
  | none => if k < 2048 ∧ port < 4 then decide (0 < meshFree s k port v) else true

/-- The name of the packet of a cell at an input. -/
def pktKey (key : Nat) (c : Cell) : Nat := key + 128 * c.pid

/-- The front cell of an input with its output, channel and exit: of a head as routed now, of a later cell as its packet
goes. -/
def frontOf (s : State) (k key : Nat) : Option (Cell × Nat × Nat × Nat) :=
  let x := routerOf s k
  match SMap.getD x.inBufs key [] with
  | [] => none
  | c :: _ =>
    if s.cycle < c.at_ then none
    else match SMap.find x.route (pktKey key c) with
      | some w => some (c, w % 32, w / 32 % 4, w / 128)
      | none =>
        match c.pkt with
        | some p =>
          let v := if p.escape then 3 else c.vc.val
          (routeOf s k (key / 4) v p).map (fun d => (c, d.1, v, d.2))
        | none => none

/-- The inputs of a node that hold cells. -/
def inputKeys (s : State) (k : Nat) : List Nat := (routerOf s k).inBufs.map Prod.fst

/-- The promotion of a packet at an input (R379). -/
def promotedAt (x : Router) (name : Nat) : Option Nat := (SMap.find x.heads name).bind (fun h => h.promoted)

/-- The lanes that a direction of a link has: while lanes reverse, those that carry on (R414, R416). -/
def linkUnits (x : Link) (toB : Bool) : Nat :=
  let units (sector : Nat) : Nat := if toB then sector else 16 - sector
  match x.serving with
  | some q => Nat.min (units x.sector) (units q.sector)
  | none => units x.sector

/-- The flits that a direction sends in a clk: 512 GB/s a unit at 68 bytes a flit (R408, R409). -/
def linkRate (x : Link) (toB : Bool) : Nat := linkUnits x toB * 512000 / 102000

/-- Whether a link output may send a flit in this clk: its lanes have room, and the router that it enters by takes 4 cells in
a clk (R374, R408). -/
def rateRoom (s : State) (k port exit : Nat) : Bool :=
  match linkAt k port with
  | some (l, a) =>
    let x := linkOf s l
    let sent := (dirOf x a).flight.filter (fun f => f.arriveAt == s.cycle + 150)
    decide (sent.length < linkRate x a) && (k < 2048 || decide ((sent.filter (fun f => f.exit == exit)).length < 4))
  | none => true

/-- The front cells that go to an output by a channel, which has room for them: the buffer, cell and exit. -/
def frontsFor (s : State) (k port v : Nat) : List (Nat × Cell × Nat) :=
  if !outRoom s k port v then []
  else (inputKeys s k).filterMap (fun key =>
    match frontOf s k key with
    | some (c, q, w, e) => if q == port && w == v && rateRoom s k port e then some (key, c, e) else none
    | none => none)

/-- Whether a channel is one that ageing moves to tier 2 (R377, R379): VC3 is there already. -/
def agedVc (v : Nat) : Bool := v < 3

/-- The cell that may go on a channel of an output now (R378): of the packet that holds it, or a head; mesh and link inputs in
round robin, then the local input. Promoted packets go by themselves. -/
def candidate (s : State) (k port v : Nat) (o : OutPort) : Option (Nat × Cell × Nat) :=
  let x := routerOf s k
  let fs := (frontsFor s k port v).filter (fun f => !agedVc v || (promotedAt x (pktKey f.1 f.2.1)).isNone)
  match vget o.lock v none with
  | some name => fs.find? (fun f => pktKey f.1 f.2.1 == name)
  | none =>
    let rank (f : Nat × Cell × Nat) : Nat := if f.1 / 4 = 4 then 64 else (f.1 / 4 + 63 - vget o.rr v 0) % 64
    (sortBy (fun a b => decide (rank a < rank b)) (fs.filter (fun f => f.2.1.head))).head?

/-- The cell of the promoted packet that is longest promoted at an output, with the clk of its promotion and its channel (R377,
R379). -/
def promotedCell (s : State) (k port : Nat) : Option (Nat × Nat × Nat × Cell × Nat) :=
  let x := routerOf s k
  let fs := [0, 1, 2].flatMap (fun v => (frontsFor s k port v).filterMap (fun f =>
    (promotedAt x (pktKey f.1 f.2.1)).map (fun n => (n, v, f))))
  (sortBy (fun a b => decide (a.1 < b.1)) fs).head?

/-- What a cell slot of an output is given: a channel, or the promoted packet. -/
inductive SlotFor where | vc (v : Nat) | promoted
  deriving DecidableEq, Repr

/-- The choice for one cell slot by the tiers of R377, with the output's counts; `has v` tells whether a cell of the channel can
go, `prom` whether one of a promoted packet can. The slots of an S-die's link go in fours. -/
def pickTier (cells : Nat) (o : OutPort) (has : Nat → Bool) (prom : Bool) : Option (SlotFor × OutPort) :=
  let o := if o.used % 4 = 0 then { o with vc0 := 0, tier2 := 0 } else o
  let o1 : OutPort := { o with used := o.used + 1 }
  let low := has 1 || has 2
  if cells ≤ o.used then none
  else if has 0 && (o.vc0 == 0 || !(low || has 3 || prom)) then some (.vc 0, { o1 with vc0 := o.vc0 + 1 })
  else if (has 3 || prom) && (o.tier2 == 0 || !low) then
    some (if has 3 then .vc 3 else .promoted, { o1 with tier2 := o.tier2 + 1 })
  else if has 1 && has 2 then
    if o.run < 3 then some (.vc 1, { o1 with run := o.run + 1 }) else some (.vc 2, { o1 with run := 0 })
  else if has 1 then some (.vc 1, o1)
  else if has 2 then some (.vc 2, o1)
  else none

/-- The arbitration state of an output as this clk begins. -/
def outOf (s : State) (k port : Nat) : OutPort :=
  let o := SMap.getD (routerOf s k).outs port OutPort.reset
  if o.clk = s.cycle then o else { o with clk := s.cycle, used := 0, vc0 := 0, tier2 := 0 }

/-! ## Forwarding -/

/-- Return the credit of a cell that leaves an input buffer, a clk later, or to the link (R374, R411). -/
def returnCredit (k key : Nat) (s : State) : State :=
  let port := key / 4
  let v := key % 4
  let far := if 16 ≤ port then 0 else port
  match linkAt k far with
  | some (l, a) =>
    let x := linkOf s l
    let d := dirOf x (!a)
    setLink s l (setDir (!a) { d with freed := vset d.freed v (vget d.freed v 0 + 1) } x)
  | none =>
    match (if k < 2048 then neighbour k port else none) with
    | some u => modRouter u (fun x => { x with returns := x.returns ++ [(s.cycle + 1, (port + 2) % 4 * 4 + v)] }) s
    | none => s

/-- A packet has left the mesh at a local output: to the tile, the lightship, a server tile or the port bridge (R374,
R376, R500). It takes 3 clk through the output, and is taken up in the clk after that (R402). -/
def deliverPkt (k port : Nat) (p : Packet) (s : State) : State :=
  let to_ (e : Nat) : State := modMsg e (fun ms => { ms with inbox := ms.inbox ++ [(s.cycle + 4, p)] }) s
  if 2048 ≤ k then
    if port = 4 then to_ (localOf p.dst)
    else match p.via with
      | some m => modPort m.val (fun x => { x with
          queue := x.queue ++ [{ p with escape := false, unescaped := p.unescaped || p.escape }] }) s
      | none => s
  else if port = 5 then to_ lsRank
  else to_ k

/-- One bit through CRC-16 with polynomial 0x1021 (R409). -/
def crcBit (c : BitVec 16) (b : Bool) : BitVec 16 := if c.msb != b then (c <<< 1) ^^^ 0x1021 else c <<< 1

/-- CRC-16 over bytes from 0xFFFF, each from its highest bit (R409; log entry 106). -/
def crc16 (bs : List Byte) : BitVec 16 :=
  bs.foldl (fun c x => (List.range 8).foldl (fun c i => crcBit c (x.getLsbD (7 - i))) c) 0xFFFF

/-- Bits 15 to 0 of a flit's control bytes (R409). -/
def flitBits (seq : BitVec 12) (c : Cell) : BitVec 16 :=
  seq ++ BitVec.ofNat 2 c.vc.val ++ BitVec.ofBool c.head ++ BitVec.ofBool c.tail

/-- The check sum of a flit: over the content and bits 15 to 0 (R409). -/
def flitCrc (seq : BitVec 12) (c : Cell) : BitVec 16 := crc16 (c.bytes ++ leBytes 2 (flitBits seq c).toNat)

/-- A flit as it is first sent. -/
def mkFlit (seq : BitVec 12) (c : Cell) (exit at_ : Nat) : Flit := ⟨seq, c, flitCrc seq c, exit, 1, at_⟩

/-- Add DATA that comes in one clk to what is on its way in already (R371). -/
def joinData (due : Nat) (p : Packet) (box : List (Nat × Packet)) : List (Nat × Packet) :=
  match box.getLast? with
  | some (n, q) =>
    if n = due ∧ q.kind = .data ∧ q.src = p.src ∧ q.group = p.group ∧ q.seq = p.seq ∧ q.job = p.job
        ∧ q.offset + q.payload.length = p.offset then
      box.dropLast ++ [(n, { q with payload := q.payload ++ p.payload })]
    else box ++ [(due, p)]
  | none => box ++ [(due, p)]

/-- Payload of a DATA packet comes to a tile: the packet and its bytes from `a` on. -/
def landData (k : Nat) (p : Packet) (a : Nat) (bs : List Byte) (s : State) : State :=
  modMsg k (fun m => { m with inbox := joinData (s.cycle + 4) { p with offset := p.offset + a, payload := bs } m.inbox }) s

/-- A cell passes the local output of a tile (R374, R402). A DATA packet is taken up cell by cell, so that a receive cancelled
meanwhile holds a part of it (R272); any other packet is taken up whole, with its tail. -/
def landCell (k : Nat) (c : Cell) (s : State) : State :=
  match c.pkt, (msgOf s k).landing.find? (fun x => x.pid == c.pid) with
  | _, some x =>
    let bs := c.bytes.take x.left
    let s := modMsg k (fun m => { m with landing := m.landing.filterMap (fun y =>
      if y.pid != c.pid then some y
      else if c.tail then none else some { y with got := y.got + bs.length, left := y.left - bs.length }) }) s
    landData k x.pkt x.got bs s
  | some p, none =>
    if c.head && !c.tail && p.kind == .data && p.tree.isEmpty then
      let bs := (c.bytes.drop 32).take p.payload.length
      let s := modMsg k (fun m => { m with landing :=
        m.landing ++ [⟨c.pid, { p with payload := [] }, bs.length, p.payload.length - bs.length⟩] }) s
      landData k { p with payload := [] } 0 bs s
    else if c.tail then deliverPkt k 4 p s else s
  | none, none => s

/-- Place a cell where an output leads: the next router, a link, or a unit. -/
def sendCell (k port v exit : Nat) (c : Cell) (s : State) : State :=
  let c := { c with vc := Fin.ofNat 4 v }
  match linkAt k port with
  | some (l, a) =>
    let x := linkOf s l
    let d := dirOf x a
    let f := mkFlit d.nextSeq c exit (s.cycle + 150)
    setLink s l (setDir a { d with nextSeq := d.nextSeq + 1, replay := d.replay ++ [f], flight := d.flight ++ [f],
                                   credits := vset d.credits v (vget d.credits v 0 - 1), sent := d.sent + 1 } x)
  | none =>
    match (if k < 2048 then neighbour k port else none) with
    | some n =>
      let key := (port + 2) % 4 * 4 + v
      let s := modRouter k (fun x => { x with used := SMap.insert x.used (port * 4 + v) (SMap.getD x.used (port * 4 + v) 0 + 1) }) s
      modRouter n (fun x => { x with inBufs := SMap.insert x.inBufs key (SMap.getD x.inBufs key [] ++ [{ c with at_ := s.cycle + 3 }]) }) s
    | none =>
      if k < 1024 ∧ port = 4 then landCell k c s
      else match c.tail, c.pkt with
        | true, some p => deliverPkt k port p s
        | _, _ => s

/-- Remove an empty list from a map of lists. -/
def putList (m : SMap (List Cell)) (key : Nat) (cs : List Cell) : SMap (List Cell) :=
  if cs.isEmpty then SMap.erase m key else SMap.insert m key cs

/-- A cell leaves an input by an output; the packet keeps its way until its tail (R375, R378). A promoted packet leaves the
channel to the one that holds it. -/
def leaveInput (key port v exit : Nat) (what : SlotFor) (c : Cell) (o : OutPort) (x : Router) : Router :=
  let name := pktKey key c
  let o := if what = .promoted then o
    else { o with lock := vset o.lock v (if c.tail then none else some name),
                  rr := if c.head && key / 4 != 4 then vset o.rr v (key / 4) else o.rr }
  { x with
    inBufs := putList x.inBufs key ((SMap.getD x.inBufs key []).drop 1),
    outs := SMap.insert x.outs port o,
    route := if c.tail then SMap.erase x.route name else SMap.insert x.route name (port + 32 * v + 128 * exit),
    heads := if c.tail then SMap.erase x.heads name else x.heads }

/-- The cell that an output gives for what a slot is given. -/
def cellFor (s : State) (k port : Nat) (what : SlotFor) : Option (Nat × Nat × Cell × Nat) :=
  match what with
  | .vc v => (candidate s k port v (outOf s k port)).map (fun f => (v, f))
  | .promoted => (promotedCell s k port).map Prod.snd

/-- A cell leaves a node by an output, `o` being the output's arbitration after it. -/
def passCell (k port : Nat) (what : SlotFor) (o : OutPort) (s : State) : Option State :=
  (cellFor s k port what).map (fun (v, key, cell, exit) =>
    sendCell k port v exit cell (returnCredit k key (modRouter k (leaveInput key port v exit what cell o) s)))

/-- The edge routers that face a link of a C-die with one of their number (R376), of those that can still move a cell in this clk. -/
def linkPeers (s : State) (k port : Nat) : List (Nat × Nat) :=
  (upTo 16 (fun i => (i, edgeTile (k / 256) port i))).filter (fun p =>
    !(routerOf s p.2).stopped && decide ((outOf s p.2 port).used < portCells p.2))

/-- The choice for a flit slot of a link at a C-die (R412): the tiers of R377 over the 16 routers that face it, among those with a
cell of the chosen class in round robin, or the one with the oldest promotion. Gives the router, what the slot is given, and the link's
arbitration after it. -/
def linkSlot (s : State) (k port cells : Nat) (o : OutPort) : Option (Nat × SlotFor × OutPort) :=
  let peers := linkPeers s k port
  let having (v : Nat) : List (Nat × Nat) := peers.filter (fun p => (candidate s p.2 port v (outOf s p.2 port)).isSome)
  let proms := peers.filterMap (fun p => (promotedCell s p.2 port).map (fun q => (q.1, p.2)))
  match pickTier cells o (fun v => !(having v).isEmpty) (!proms.isEmpty) with
  | none => none
  | some (.vc v, o) =>
    let rank (p : Nat × Nat) : Nat := (p.1 + 15 - vget o.rr v 0) % 16
    (sortBy (fun a b => decide (rank a < rank b)) (having v)).head?.map (fun p => (p.2, .vc v, { o with rr := vset o.rr v p.1 }))
  | some (.promoted, o) => (sortBy (fun a b => decide (a.1 < b.1)) proms).head?.map (fun p => (p.2, .promoted, o))

/-- One cell of an output (R375, R377), or one flit of a link by the router whose turn it is (R412). -/
def tryForward (k port : Nat) (s : State) : Option State :=
  let o := outOf s k port
  if (routerOf s k).stopped then none
  else
    match (if k < 2048 then linkAt k port else none) with
    | some (l, a) =>
      let x := linkOf s l
      let q := (dirOf x a).out
      let q := if q.clk = s.cycle then q else { q with clk := s.cycle, used := 0, vc0 := 0, tier2 := 0 }
      match linkSlot s k port (linkRate x a) q with
      | some (n, what, q) =>
        if n ≠ k then none
        else (passCell k port what { o with used := o.used + 1 } s).map (fun s =>
          let x := linkOf s l
          setLink s l (setDir a { dirOf x a with out := q } x))
      | none => none
    | none =>
      match pickTier (portCells k) o (fun v => (candidate s k port v o).isSome) (promotedCell s k port).isSome with
      | some (what, o) => passCell k port what o s
      | none => none

/-- The local inputs of a node, filled: at an S-die 4 for its server tiles and 1 for the ports, at a tile 4, at the lightship's
5 as well, and at an edge router 6 for the copies of tree packets (R486). -/
def refillAll (k : Nat) (s : State) : State :=
  if 2048 ≤ k then modRouter k (fun x => fillBuffers k 1 s.cycle 64 x) (refill k 4 64 s)
  else
    let s := modRouter k (fun x => fillBuffers k 6 s.cycle 4 x) (refill k 4 4 s)
    if k % 256 = 136 then refill k 5 4 s else s

/-- CELL_FORWARD (R375, R377): one cell by one output of a node. -/
def cellForward (n : NetNode) (p : Port) (s : State) : Option State :=
  tryForward (nodeKey n) (portNum p) (refillAll (nodeKey n) s)

def execCellForward (n : NetNode) (p : Port) (s : State) : Out := .next (orStay s (cellForward n p s))

/-- CREDIT_RETURN (R374): the credits due at an output arrive. -/
def execCreditReturn (n : NetNode) (p : Port) (s : State) : Out :=
  let port := portNum p
  .next (modRouter (nodeKey n) (fun x =>
    let due := x.returns.filter (fun q => decide (q.1 ≤ s.cycle) && q.2 / 4 == port)
    { x with returns := x.returns.filter (fun q => !(decide (q.1 ≤ s.cycle) && q.2 / 4 == port)),
             used := due.foldl (fun m q => SMap.insert m q.2 (SMap.getD m q.2 0 - 1)) x.used }) s)

/-! ## Ageing and escape (R379, R380) -/

/-- One clk of the heads at a node's inputs (R379, R380). -/
def ageRouter (k : Nat) (s : State) : State :=
  modRouter k (fun x =>
    { x with heads := (inputKeys s k).foldl (fun m key =>
        match frontOf s k key with
        | some (c, port, v, _) =>
          let name := pktKey key c
          if !c.head || (SMap.find x.route name).isSome then m
          else
            let h := SMap.getD m name ⟨c.at_, 0, none⟩
            SMap.insert m name { h with age := if outRoom s k port v then h.age + 1 else h.age }
        | none => m) x.heads }) s

/-- The inputs that a port and a channel name: at an S-die the link's are one for each edge router; at an edge router the link's
take in the copies made there. -/
def keysAt (k port v : Nat) : List Nat :=
  if 2048 ≤ k ∧ port = 0 then upTo 16 (fun i => (16 + i) * 4 + v)
  else if (linkAt k port).isSome then [port * 4 + v, 24 + v] else [port * 4 + v]

/-- The name of the packet at the front of an input whose head still waits there. -/
def waitingHead (x : Router) (key : Nat) : Option Nat :=
  match SMap.getD x.inBufs key [] with
  | c :: _ => if c.head && (SMap.find x.route (pktKey key c)).isNone then some (pktKey key c) else none
  | [] => none

/-- PROMOTION (R379). -/
def tryPromotion (k port v : Nat) (s : State) : Option State :=
  let x := routerOf s k
  ((keysAt k port v).filterMap (waitingHead x)).find? (fun name => match SMap.find x.heads name with
      | some h => decide (256 ≤ h.age) && h.promoted.isNone
      | none => false) |>.map (fun name =>
    modRouter k (fun x => { x with heads := x.heads.map (fun q =>
      if q.1 = name then (q.1, { q.2 with promoted := some s.cycle }) else q) }) s)

def execPromotion (n : NetNode) (p : Port) (vc : Fin 4) (s : State) : Out :=
  .next (orStay s (tryPromotion (nodeKey n) (portNum p) vc.val s))

/-- Mark the packet of a head cell as escaped (R380): bit 0 of byte 27 (R372). -/
def escapeHead (cs : List Cell) : List Cell :=
  match cs with
  | c :: rest =>
    let bs := c.bytes.set 27 1
    { c with pkt := c.pkt.map (fun p => { p with escape := true }), bytes := bs, check := checkCodes bs } :: rest
  | [] => []

/-- ESCAPE (R380): a head that has stayed at one input for more than 4,096 clk moves to VC3, counted. -/
def tryEscape (k port v : Nat) (s : State) : Option State :=
  let x := routerOf s k
  (keysAt k port v).find? (fun key =>
      (match (waitingHead x key).bind (SMap.find x.heads) with
       | some h => decide (h.since + 4096 < s.cycle)
       | none => false)
      && ((SMap.getD x.inBufs key []).head?.bind (fun c => c.pkt)).any (fun p => !p.escape)) |>.map (fun key =>
    modRouter k (fun x =>
      { x with inBufs := SMap.insert x.inBufs key (escapeHead (SMap.getD x.inBufs key [])), escapes := x.escapes + 1 }) s)

def execEscape (n : NetNode) (p : Port) (vc : Fin 4) (s : State) : Out :=
  .next (orStay s (tryEscape (nodeKey n) (portNum p) vc.val s))

/-! ## Flits (R409 to R411) -/

/-- The node and input at the end of a link where a flit's cell goes on (R376). -/
def flitEnd (l : Nat) (toB : Bool) (exit : Nat) : Nat × Nat :=
  if l < 8 ∧ toB then (2048 + l, 16 + exit)
  else
    let die := if l < 8 then l / 2 else if toB then (ringDies l).2 else (ringDies l).1
    let dir := (linkEdge die l).getD 0
    (edgeTile die dir exit, dir)

/-- A tree packet that has entered whole and whose DIE entry is stripped here (R486): its cells leave the buffer, their credits
go back (R411), and its copies enter. -/
def stripTree (l : Nat) (toB : Bool) (k key pid : Nat) (s : State) : State :=
  let cs := SMap.getD (routerOf s k).inBufs key []
  let (mine, rest) := (cs.filter (fun c => c.pid == pid), cs.filter (fun c => c.pid != pid))
  match mine.head?.bind (fun c => c.pkt) with
  | some p =>
    if k < 2048 && stripsAt s (k / 256) p then
      let x := linkOf s l
      let d := dirOf x toB
      let s := setLink s l (setDir toB { d with freed := vset d.freed (key % 4) (vget d.freed (key % 4) 0 + mine.length) } x)
      (stripTop p).foldl (fun s q => injectAt k 6 (s.cycle + 2) q s) (modRouter k (fun x =>
        { x with inBufs := putList x.inBufs key rest }) s)
    else s
  | none => s

/-- A cell enters the input buffer at the end of a link, its check codes regenerated (R409). -/
def acceptCell (l : Nat) (toB : Bool) (f : Flit) (s : State) : State :=
  let (k, port) := flitEnd l toB f.exit
  let key := port * 4 + f.cell.vc.val
  let c := { f.cell with at_ := s.cycle + 2, check := checkCodes f.cell.bytes }
  let s := modRouter k (fun x => { x with inBufs := SMap.insert x.inBufs key (SMap.getD x.inBufs key [] ++ [c]) }) s
  if f.cell.tail then stripTree l toB k key f.cell.pid s else s

/-- A flit arrives (R410): accepted where it is undamaged, its check sum agrees and it is next in sequence; else discarded with
a replay request. -/
def tryFlit (l : Nat) (toB ok : Bool) (s : State) : Option State :=
  let x := linkOf s l
  let d := dirOf x toB
  match d.flight with
  | [] => none
  | f :: rest =>
    if s.cycle < f.arriveAt then none
    else
      let d := { d with flight := rest }
      let put (d : LinkDir) : State := setLink s l (setDir toB d x)
      if ok && flitCrc f.seq f.cell == f.crc && f.seq == d.expected then
        some (acceptCell l toB f (put { d with expected := d.expected + 1, discarding := false, accepted := d.accepted + 1 }))
      else if d.discarding && !(f.seq == d.expected) then some (put d)
      else some (put { d with discarding := true, wantReplay := some d.expected })

def execFlit (l : Fin 12) (toB ok : Bool) (s : State) : Out := .next (orStay s (tryFlit l.val toB ok s))

/-- A link goes DOWN: nothing is sent or received any more, its queued turns are discarded and the lightship is informed
(R421). -/
def linkDown (l : Nat) (s : State) : State :=
  let x := linkOf s l
  setLink { s with ls := { s.ls with reports := s.ls.reports ++ [(3072 + l, 3)] } } l
    { x with st := .down, qa := [], qb := [], serving := none, ab := { x.ab with wantReplay := none, flight := [] },
             ba := { x.ba with wantReplay := none, flight := [] } }

/-- REPLAY_REQUEST (R410): the sender sends again from the named flit; a flit sent 8 times takes the link DOWN. -/
def tryReplay (l : Nat) (toB : Bool) (s : State) : Option State :=
  let x := linkOf s l
  let d := dirOf x toB
  match (if x.st = .down then none else d.wantReplay) with
  | none => none
  | some q =>
    let (old, again) := (d.replay.takeWhile (fun f => f.seq != q), d.replay.dropWhile (fun f => f.seq != q))
    if again.any (fun f => decide (8 ≤ f.tries)) then some (linkDown l s)
    else
      let again := again.map (fun f => { f with tries := f.tries + 1, arriveAt := s.cycle + 150 })
      some (setLink s l (setDir toB { d with wantReplay := none, replay := old ++ again, flight := d.flight ++ again,
                                             resent := d.resent + again.length } x))

def execReplayRequest (l : Fin 12) (toB : Bool) (s : State) : Out := .next (orStay s (tryReplay l.val toB s))

/-- LINK_ACK_TIMER (R410): an acknowledgement goes out after 64 flits or 100 ns. -/
def tryAckTimer (l : Nat) (toB : Bool) (s : State) : Option State :=
  let x := linkOf s l
  let d := dirOf x toB
  if d.accepted = 0 ∨ (d.accepted < 64 ∧ s.cycle < d.lastAck + 150) then none
  else some (setLink s l (setDir toB { d with accepted := 0, lastAck := s.cycle, ackTo := some d.expected } x))

def execLinkAckTimer (l : Fin 12) (toB : Bool) (s : State) : Out := .next (orStay s (tryAckTimer l.val toB s))

/-- LINK_ACK (R410): the acknowledged flits leave the replay buffer. -/
def tryLinkAck (l : Nat) (toB : Bool) (s : State) : Option State :=
  let x := linkOf s l
  let d := dirOf x toB
  match d.ackTo with
  | none => none
  | some q =>
    some (setLink s l (setDir toB { d with ackTo := none, replay := d.replay.filter (fun f => !(f.seq - q).slt 0) } x))

def execLinkAck (l : Fin 12) (toB : Bool) (s : State) : Out := .next (orStay s (tryLinkAck l.val toB s))

/-- LINK_CREDIT (R411): the credits of a channel come back. -/
def execLinkCredit (l : Fin 12) (toB : Bool) (vc : Fin 4) (s : State) : Out :=
  let x := linkOf s l.val
  let d := dirOf x toB
  let v := vc.val
  .next (setLink s l.val (setDir toB { d with
    credits := vset d.credits v (Nat.min (linkCap v) (vget d.credits v 0 + vget d.freed v 0)), freed := vset d.freed v 0 } x))

/-! ## The turn controller (R415 to R417) -/

/-- Whether a cell has waited at a node more than 4 µs for an output (R417). -/
def staleAt (s : State) (k port : Nat) : Bool :=
  (inputKeys s k).any (fun key => match frontOf s k key with
    | some (c, q, _, _) => q == port && decide (c.at_ + stallClk < s.cycle)
    | none => false)

/-- Whether the sending end of a direction holds a cell that has waited more than 4 µs (R417). -/
def staleCell (s : State) (l : Nat) (toB : Bool) : Bool :=
  if l < 8 ∧ !toB then staleAt s (2048 + l) 0
  else
    let die := if l < 8 then l / 2 else if toB then (ringDies l).1 else (ringDies l).2
    let dir := (linkEdge die l).getD 0
    (List.range 16).any (fun i => staleAt s (edgeTile die dir i) dir)

/-- Whether a turn to a sector is deferred (R417). -/
def deferTurn (s : State) (l : Nat) (x : Link) (sector : Nat) : Bool :=
  let toB := decide (sector < x.sector)
  decide ((if toB then sector else 16 - sector) < 4) && staleCell s l toB

/-- Take the head out of its queue. -/
def popTurn (b : Bool) (x : Link) : Link := if b then { x with qb := x.qb.drop 1 } else { x with qa := x.qa.drop 1 }

/-- A request has been served: TURN.W finds its turn count and sector (R419). -/
def markServed (q : TurnReq) (x : Link) : Link :=
  if q.ticket = 0 then x else { x with served := SMap.insert x.served q.ticket (x.turns, x.sector) }

/-- What the start of a turn takes from the direction it reduces (R416): from the first flit in flight on a lane that reverses,
which is a free choice (log entry 107), the flits are sent again under R410; none is later for it than by the dead time. -/
def loseFlits (l : Nat) (toB : Bool) (s : State) : State :=
  let d := dirOf (linkOf s l) toB
  let (i, s) := freshPick s (d.flight.length + 1)
  let lost := d.flight.drop i
  if lost.isEmpty then s
  else if lost.any (fun f => decide (8 ≤ f.tries)) then linkDown l s
  else
    let again := lost.map (fun f => { f with tries := f.tries + 1, arriveAt := Nat.min (s.cycle + 150) (f.arriveAt + deadClk) })
    setLink s l (setDir toB { d with
      flight := d.flight.take i ++ again, resent := d.resent + again.length,
      replay := d.replay.map (fun f => if again.any (fun g => g.seq == f.seq) then { f with tries := f.tries + 1 } else f) } (linkOf s l))

/-- TURN_SERVICE (R415 to R417). -/
def tryTurnService (l : Nat) (s : State) : Option State :=
  let x := linkOf s l
  if x.serving.isSome ∨ x.st = .down then none
  else match turnHead x with
    | none => none
    | some (b, q) =>
      if q.sector = x.sector then some (setLink s l { markServed q (popTurn b x) with st := .steady })
      else if dwelling s x then none
      else if deferTurn s l x q.sector then
        if x.st = .deferred then none else some (setLink s l { x with st := .deferred })
      else some (loseFlits l (decide (q.sector < x.sector))
        (setLink s l { popTurn b x with serving := some q, st := .dead, deadEnd := s.cycle + deadClk }))

def execTurnService (l : Fin 12) (s : State) : Out := .next (orStay s (tryTurnService l.val s))

/-- DEAD_TIME_END (R416). -/
def tryDeadTimeEnd (l : Nat) (s : State) : Option State :=
  let x := linkOf s l
  match x.serving with
  | none => none
  | some q =>
    if s.cycle < x.deadEnd then none
    else some (setLink s l (markServed q
      { x with sector := q.sector, turns := (x.turns + 1) % 65536, serving := none, st := .steady, lastEnd := some s.cycle }))

def execDeadTimeEnd (l : Fin 12) (s : State) : Out := .next (orStay s (tryDeadTimeEnd l.val s))

end Sys2Proof.Machine
end

