-- ==== Sys2Proof/Machine/Lightship.lean ====
section
/-! DEFINITION. The lightship's requests (R443, R444, R446, R447, R450, R458, R461, R462), the boot of a job, failures of
routers, links and dies, power and cooling (R399, R414, R460 to R463, R466, R467), package reset. -/

namespace Sys2Proof.Machine

/-! ## LOAD (R443, R444, R451) -/

/-- The allotments of a load, none where one cannot be granted (R432, R443). -/
def grantAll (s : State) (es : List ConfEntry) : Option (List (Nat × Nat × Nat)) :=
  (allotAsk es).foldl (fun x q => x.bind (fun as =>
    if stackOpen s q.1 then (firstBase s [q.1] q.2).map (fun b => as ++ [(q.1, b, b + q.2)]) else none)) (some [])

/-- The resident slot of a new job: one never used, or that of an ended job (R447, R450). -/
def freeSlot (s : State) : Option Nat :=
  ((List.range 4).find? (fun i => (vget s.ls.jobs i none).isNone)).or
    ((List.range 4).find? (fun i => match vget s.ls.jobs i none with
      | some j => j.st == .ended
      | none => false))

/-- The record of a job that is loaded. -/
def newJob (host : W32) (tag : BitVec 24) (id : BitVec 16) (m : Image) (qs : List Rect) (as : List (Nat × Nat × Nat)) : Job where
  id := id
  prio := m.prio
  atPhase := m.atPhase
  st := .loading
  host := host
  tag := tag
  rects := qs
  placed := placedOf m
  boot := bootOf m
  words := []
  sent := []
  result := none
  allot := as
  cur := m.win
  old := none
  staged := m.win
  gen := 0
  winsets := []
  commits := []
  announced := none
  served := []
  left := []
  saveBase := none
  saveLost := false
  toAck := []
  restore := false

/-- Whether the clusters of a partition are free or can be made free, and usable (R443, R447, R451, R462). -/
def partFree (s : State) (id : BitVec 16) (prio : Nat) (qs : List Rect) : Bool :=
  let cs := partClusters qs
  cs.all (fun c => !excluded s (.lens c)) && qs.all (fun q => vget s.ls.dies q.die .online == .online)
    && (blockers s id cs).all (mayPark s prio)

/-- Whether the windows of a load keep R436. -/
def winsOk (j : Job) : Bool := (j.cur.zipIdx).all (fun p => winOk j j.cur p.2 p.1)

/-- The reason for which a load is refused, in the order of R443; 0 where it passes. -/
def loadReason (s : State) (id : BitVec 16) (b : List Byte) : Nat :=
  if rectCount b = 0 ∨ 128 < rectCount b then 3
  else match imageOf (imageBytes b) with
  | none => 1
  | some m =>
    let ps := placedOf m
    let qs := rectsOf b
    let part := partTiles qs
    if ps.any (roleTooLong m) || m.roles.any (fun p => decide (0x1F0000 < p.2.2.length)) then 1
    else if !m.digestOk then 2
    else if !partOk b || !partFree s id m.prio qs then 3
    else if !ps.all (placedOk s part) || !distinctN (occupied ps) then 4
    else if !bootOk (ps.map (fun p => p.rank)) (bootOf m) then 5
    else match grantAll s m.conf with
    | none => 6
    | some as =>
      if !winsOk (newJob 0 0 id m qs as) then 6
      else if !ps.all (fun p => confPasses p.rank m.conf (bareTile p)) then 7
      else if id = 0xFFFF ∨ (liveJob s id).isSome ∨ (freeSlot s).isNone then 8
      else 0

/-- The message that brings a tile its image: tag and length of the station receive that waits for it (R444; log entry 70). -/
def imageRecv (parent : W32) (tag : BitVec 24) (n : Nat) : MSlot :=
  { unitSlot .recv parent tag imageGroup 0xFFFF n [] with st := .posted, station := true }

/-- The parent of a tile in the boot tree (R443). -/
def parentOf (j : Job) (r : Nat) : Nat := ((j.boot.find? (fun e => e.2.contains r)).map Prod.fst).getD lsRank

/-- Place one tile (R444): launch state, station firmware (R199), JOBID (R449), RANK (R247), CONF values. -/
def placeTile (j : Job) (slot : Nat) (m : Image) (s : State) (p : Placed) : State :=
  let r := p.rank
  let role := SMap.getD m.roles p.role (0, [])
  let t := launchTile (tileOf s r) (if p.duplex then .leader else .solo)
  let t := { t with
    sram := Mem.writeN t.sram 0x1F0000 s.ls.stFirmware, entry := role.1, image := role.2,
    stSlots := [(7, imageRecv (unitRank s (parentOf j r)) (BitVec.ofNat 24 s.cycle) role.2.length)],
    ctrl := { t.ctrl with
      rank := (unitRank s r).zeroExtend 64,
      jobid := BitVec.ofNat 64 (j.id.toNat + slot * 65536 + j.prio * 2 ^ 18 + ofBool j.atPhase * 2 ^ 20) } }
  let s := setTile s r (confTile r m.conf t)
  if p.duplex then setTile s (r + 1) (launchTile (tileOf s (r + 1)) .follower) else s

/-- The image of a tile goes out from the slot of a unit, under the tag that the tile waits for (R444). -/
def sendImage (e n : Nat) (s : State) (r : Nat) : State :=
  let t := tileOf s r
  let tag := ((SMap.find t.stSlots 7).map (fun m => m.tag)).getD 0
  let m := unitSlot .send (unitRank s r) tag imageGroup 0xFFFF t.image.length t.image
  startSend e n { m with station := decide (e < 1024) } 2048 s

/-- The steps of a load that has passed its checks (R444). -/
def startLoad (host : W32) (tag : BitVec 24) (id : BitVec 16) (b : List Byte) (s : State) : State :=
  match imageOf (imageBytes b), freeSlot s with
  | some m, some slot =>
    match grantAll s m.conf with
    | none => s
    | some as =>
      let j := newJob host tag id m (rectsOf b) as
      let s := { s with ls := { s.ls with jobs := vset s.ls.jobs slot (some j) } }
      let s := (partClusters j.rects).foldl (clearCluster id) s
      let s := setWeights j (j.placed.foldl (placeTile j slot m) s)
      lsReply host tag 0 0 [] ((childrenOf j lsRank).foldl (fun s r => sendImage lsRank (newSlot s lsRank) s r) s)
  | _, _ => s

/-- LOAD (R443, R444): refused with the first failure; jobs of lower priority in its way park first (R451). -/
def runLoad (host : W32) (tag : BitVec 24) (id : BitVec 16) (b : List Byte) (s : State) : State :=
  let i := Duty.request ⟨host, tag, id, .load b⟩
  let why := loadReason s id b
  if why ≠ 0 then lsReply host tag 15 why [] s
  else
    let bs := blockers s id (partClusters (rectsOf b))
    if bs.isEmpty then startLoad host tag id b s
    else match parkAll bs s with
      | some s => deferFirst i s
      | none => lsReply host tag 15 6 [] s

def execLoad (host : W32) (tag : BitVec 24) (job : BitVec 16) (payload : List Byte) (s : State) : Out :=
  .next (hostServe ⟨host, tag, job, .load payload⟩ (runLoad host tag job payload) s)

/-! ## Boot (R444) -/

/-- IMAGE_FORWARD (R444): a complete copy goes on to the children, one after the other in the listed order, as station traffic
from station slot 6 (log entry 70). -/
def tryImageForward (r : Nat) (s : State) : Option State :=
  let t := tileOf s r
  match liveJob s (jobOf t) with
  | some j =>
    match (childrenOf j r)[t.imageSent]? with
    | some c =>
      if t.imageDone && (SMap.find t.stSlots 6).all (fun m => !m.busy) then
        some (modTile (sendImage r 134 s c) r (fun t => { t with imageSent := t.imageSent + 1 }))
      else none
    | none => none
  | none => none

def execImageForward (r : TileId) (s : State) : Out := .next (orStay s (tryImageForward r.val s))

/-- KEEPER_START (R444): at the entry address, at job level. -/
def tryKeeperStart (r : Nat) (s : State) : Option State :=
  let t := tileOf s r
  match liveJob s (jobOf t) with
  | some j =>
    if t.imageDone && !t.keeper.started && j.st == .loading then
      some (settleLoading j.id (modTile s r (fun t => { t with keeper := { t.keeper with
        started := true, station := false, pc := BitVec.ofNat 64 t.entry, issueAt := s.cycle } })))
    else none
  | none => none

def execKeeperStart (r : TileId) (s : State) : Out := .next (orStay s (tryKeeperStart r.val s))

/-! ## PREEMPT, RESUME, KILL, STATUS (R446, R447, R450, R451) -/

def runPreempt (host : W32) (tag : BitVec 24) (id : BitVec 16) (s : State) : State :=
  match liveJob s id with
  | some j =>
    if j.st ≠ .running then lsReply host tag 15 0 [] s
    else if !j.toAck.isEmpty then lsReply host tag 0 0 [] s
    else if !roomToPark s j then lsReply host tag 15 3 [] s
    else match parkJob s j with
      | some s => lsReply host tag 0 0 [] s
      | none => lsReply host tag 15 6 [] s
  | none => lsReply host tag 15 0 [] s

def execPreempt (host : W32) (tag : BitVec 24) (job : BitVec 16) (s : State) : Out := 
  .next (hostServe ⟨host, tag, job, .preempt⟩ (runPreempt host tag job) s)

def runResume (host : W32) (tag : BitVec 24) (id : BitVec 16) (s : State) : State :=
  let i := Duty.request ⟨host, tag, id, .resume⟩
  match liveJob s id with
  | some j =>
    let bs := blockers s id (partClusters j.rects)
    if j.st ≠ .parked ∨ !j.toAck.isEmpty then lsReply host tag 15 0 [] s
    else if bs.isEmpty then lsReply host tag 0 0 [] (restoreJob s j)
    else if !bs.all (mayPark s j.prio) then lsReply host tag 15 3 [] s
    else match parkAll bs s with
      | some s => deferFirst i s
      | none => lsReply host tag 15 6 [] s
  | none => lsReply host tag 15 0 [] s

def execResume (host : W32) (tag : BitVec 24) (job : BitVec 16) (s : State) : Out := 
  .next (hostServe ⟨host, tag, job, .resume⟩ (runResume host tag job) s)

/-- The combination of all leaf words of a job (R445). -/
def allWords (j : Job) : W64 := combineWords ((j.words.filter (fun x => x.1 == x.2.1)).map (fun x => x.2.2))

def runKill (host : W32) (tag : BitVec 24) (id : BitVec 16) (s : State) : State :=
  match liveJob s id with
  | some j =>
    let s := j.placed.foldl (fun s p =>
      sendCommand 3 id (sendLeaf id p.rank (BitVec.ofNat 64 (0x8003 * 2 ^ 48)) s) p.rank) s
    match liveJob s id with
    | some j => lsReply host tag 0 0 [] (endJob id (allWords j) s)
    | none => s
  | none => lsReply host tag 15 0 [] s

def execKill (host : W32) (tag : BitVec 24) (job : BitVec 16) (s : State) : Out := 
  .next (hostServe ⟨host, tag, job, .kill⟩ (runKill host tag job) s)

/-- The code of a job's state (R447). -/
def jobCode : JobState → Nat
  | .loading => 0
  | .running => 1
  | .parked => 2
  | .ended => 3

/-- The slot of a job's record. -/
def recordSlot (s : State) (j : Job) : Nat := ((List.range 4).find? (fun i => vget s.ls.jobs i none == some j)).getD 0

/-- The four words of a STATUS reply (R447). -/
def statusBytes (s : State) (j : Job) : List Byte :=
  leBytes 8 (jobCode j.st + j.prio * 256 + recordSlot s j * 4096 + ofBool j.atPhase * 65536)
    ++ leBytes 8 (match j.result with
      | some w => w.toNat
      | none => (combineWords (wordsAt j lsRank)).toNat)
    ++ leBytes 8 j.placed.length ++ leBytes 8 s.ls.duty

/-- STATUS (R447). -/
def runStatus (host : W32) (tag : BitVec 24) (job : BitVec 16) (s : State) : State :=
  match jobById s job with
  | some j => lsReply host tag 0 0 (statusBytes s j) s
  | none => lsReply host tag 15 0 [] s

def execStatus (host : W32) (tag : BitVec 24) (job : BitVec 16) (s : State) : Out :=
  .next (hostServe ⟨host, tag, job, .status⟩ (runStatus host tag job) s)

/-! ## Debug halt (R458) -/

/-- The tiles that a DHALT or DRESUME request names, none where it names none of a live job. -/
def haltUnits (s : State) (id unit : BitVec 16) : Option (List Nat) :=
  match liveJob s id with
  | none => none
  | some j =>
    let rs := jobTiles s j.id
    if unit = 0xFFFF then some rs
    else
      let r := holder s unit.toNat
      if rs.contains r then some [r] else none

def runDhalt (host : W32) (tag : BitVec 24) (job unit : BitVec 16) (s : State) : State :=
  match haltUnits s job unit with
  | some rs => lsReply host tag 0 0 [] (rs.foldl (fun s r => sendCommand 4 job (debugHalt r s) r) s)
  | none => lsReply host tag 15 0 [] s

def execDhaltRequest (host : W32) (tag : BitVec 24) (job : BitVec 16) (unit : BitVec 16) (s : State) : Out :=
  .next (hostServe ⟨host, tag, job, .dhalt unit⟩ (runDhalt host tag job unit) s)

/-- DRESUME (R458, R467): only below 95 degrees. -/
def runDresume (host : W32) (tag : BitVec 24) (job unit : BitVec 16) (s : State) : State :=
  match haltUnits s job unit with
  | some rs =>
    if s.ls.hot.isEmpty then lsReply host tag 0 0 [] (rs.foldl (fun s r => debugResume r s) s) else lsReply host tag 15 0 [] s
  | none => lsReply host tag 15 0 [] s

def execDresume (host : W32) (tag : BitVec 24) (job : BitVec 16) (unit : BitVec 16) (s : State) : Out :=
  .next (hostServe ⟨host, tag, job, .dresume unit⟩ (runDresume host tag job unit) s)

/-! ## TILEMAP, OFFLINE, ONLINE (R461, R462) -/

/-- Whether the package has a unit. -/
def mapUnitOk : MapUnit → Bool
  | .tile n => decide (n < 1024)
  | .server n => decide (n < 32)
  | .lens n => decide (n < 128)
  | .link n => decide (n < 12)
  | .router n => decide (n < 1024)

/-- An entry of the tile map (R461). -/
def mapWord (s : State) (u : MapUnit) : Nat :=
  match SMap.find s.ls.tileMap (mapKey u) with
  | some why => 1 + why * 16
  | none => 0

def runTilemap (host : W32) (tag : BitVec 24) (req : TileMapReq) (s : State) : State :=
  match req with
  | .read u => if mapUnitOk u then lsReply host tag 0 0 (leBytes 8 (mapWord s u)) s else lsReply host tag 15 0 [] s
  | .set us =>
    if us.all mapUnitOk then lsReply host tag 0 0 [] (us.foldl (fun s u => markMap u 4 s) s) else lsReply host tag 15 0 [] s
  | .clear us =>
    if us.all mapUnitOk then
      lsReply host tag 0 0 [] (us.foldl (fun s u =>
        { s with ls := { s.ls with tileMap := SMap.erase s.ls.tileMap (mapKey u) } }) s)
    else lsReply host tag 15 0 [] s

def execTilemap (host : W32) (tag : BitVec 24) (job : BitVec 16) (req : TileMapReq) (s : State) : Out :=
  .next (hostServe ⟨host, tag, job, .tilemap req⟩ (runTilemap host tag req) s)

/-- The state of a die. -/
def dieState (s : State) (d : Nat) : DieState := vget s.ls.dies d .online

def setDie (d : Nat) (x : DieState) (s : State) : State := { s with ls := { s.ls with dies := vset s.ls.dies d x } }

/-- The jobs that a die concerns: by partition or by window (R448, R462). -/
def concerned (s : State) (d : Nat) : List Job :=
  (liveJobs s).filter (fun j => j.rects.any (fun q => q.die == d) || (List.range 64).any (j.touches d) || touches d (saveEntry j))

/-- A die enters DRAIN with notice 1 (R462). -/
def drainDie (d : Nat) (s : State) : State :=
  if dieState s d = .online then notices 1 d (concerned s d) (setDie d .drain s) else s

/-- The die is on its way to OFFLINE (R462). -/
def leaveDie (d : Nat) (s : State) : State :=
  if dieState s d = .offline then s else settleDies { s with ls := { s.ls with leaving := d :: s.ls.leaving.filter (fun x => x != d) } }

def runOffline (host : W32) (tag : BitVec 24) (job : BitVec 16) (die : BitVec 8) (s : State) : State :=
  let i := Duty.request ⟨host, tag, job, .offline die⟩
  let d := die.toNat
  if 4 ≤ d then lsReply host tag 15 0 [] s
  else if dieState s d = .offline then lsReply host tag 0 0 [] s
  else
    let s := drainDie d s
    match moveOff d false s with
    | .done s => lsReply host tag 0 0 [] (leaveDie d s)
    | .later s => deferFirst i s
    | .short s => lsReply host tag 15 0 [] (notices 2 d (concerned s d) s)

/-- OFFLINE (R462). -/
def execOffline (host : W32) (tag : BitVec 24) (job : BitVec 16) (die : BitVec 8) (s : State) : Out :=
  .next (hostServe ⟨host, tag, job, .offline die⟩ (runOffline host tag job die) s)

/-- ONLINE (R462). -/
def runOnline (host : W32) (tag : BitVec 24) (die : BitVec 8) (s : State) : State :=
  let d := die.toNat
  if 4 ≤ d ∨ (List.range 256).any (fun n => excluded s (.router (d * 256 + n))) then lsReply host tag 15 0 [] s
  else lsReply host tag 0 0 [] (setDie d .online { s with ls := { s.ls with leaving := s.ls.leaving.filter (fun x => x != d) } })

def execOnline (host : W32) (tag : BitVec 24) (job : BitVec 16) (die : BitVec 8) (s : State) : Out :=
  .next (hostServe ⟨host, tag, job, .online die⟩ (runOnline host tag die) s)

/-! ## Failures of routers, links and dies (R399, R414, R421, R460, R463) -/

/-- The work on a die that a failure takes off without a request: windows, then OFFLINE (R460, R462). -/
def goOffline (i : Duty) (d : Nat) (lossy : Bool) (s : State) : State :=
  match moveOff d lossy s with
  | .done s => leaveDie d s
  | .later s => deferReq i s
  | .short s => notices 2 d (concerned s d) s

/-- Tiles that a failed router has halted go on: the rest of their jobs is left running (R460). -/
def runRelease (rs : List Nat) (s : State) : State := rs.foldl (fun s r => debugResume r s) (undefer (.release rs) s)

/-- A router fails (R399, R460), with its reason in the tile map (R461): it stops, the jobs with a tile on the die halt as under
DHALT, its tile fails, and the die goes to DRAIN, then OFFLINE. The lightship then lets the rest of the jobs go on (R460). -/
def routerFails (why : Nat) (r : TileId) (s : State) : State :=
  let i := Duty.router r
  let d := r.val / 256
  if s.ls.deferred.contains i then goOffline i d false (undefer i s)
  else
    let s := setRouter s r.val { routerOf s r.val with stopped := true }
    let s := report (4096 + r.val) why (markMap (.router r.val) why (markMap (.tile r.val) why s))
    let js := (liveJobs s).filter (fun j => j.st != .parked && j.placed.any (fun p => p.rank / 256 == d))
    let rest := (js.flatMap (fun j => jobTiles s j.id)).filter (fun x => x != holder s r.val && !(tileOf s x).keeper.debugHalt)
    let s := js.foldl (fun s j => (jobTiles s j.id).foldl (fun s r => debugHalt r s) s) s
    let s := deferReq i (deferReq (.release rest) s)
    drainDie d (failTile 0x8002 s (holder s r.val))

/-- ROUTER_FAILURE (R399, R460): an uncorrectable error. -/
def runRouterFailure (r : TileId) (s : State) : State := routerFails 1 r s

def execRouterFailure (r : TileId) (s : State) : Out := .next (runRouterFailure r s)

/-- A router fails its self-check (R399, R461). -/
def selfCheckAt (r : TileId) (s : State) : State := routerFails 2 r s

/-- A single-bit error in a cell of a router's buffers: corrected and counted (R399). -/
def cellErrorAt (n : NetNode) (s : State) : State :=
  setRouter s (nodeKey n) { routerOf s (nodeKey n) with corrected := (routerOf s (nodeKey n)).corrected + 1 }

/-- The tiles at the ends of a link that lie on a C-die (R376, R399). -/
def linkTiles (l : Nat) : List Nat :=
  (List.range 4).flatMap (fun die => match linkEdge die l with
    | some dir => upTo 16 (edgeTile die dir)
    | none => [])

/-- LINK_TRAINING (R410, R411, R414, R420, R421): sector 8, full credits, counters and turn count 0 (R468); a link that fails is
DOWN. -/
def execLinkTraining (l : Fin 12) (ok : Bool) (s : State) : Out :=
  .next (if ok then
      setLink s l.val { Link.reset with served := (linkOf s l.val).served }
    else
      (linkTiles l.val).foldl (fun s r => markMap (.tile r) 3 s) (markMap (.link l.val) 3 (linkDown l.val s)))

/-- DIE_FAULT (R463): the tiles leave with 0x8005; windows that cannot be read, which is open, are lost; the others move. -/
def runDieFault (d : Fin 4) (s : State) : State :=
  let i := Duty.die d
  if s.ls.deferred.contains i then goOffline i d.val true (undefer i s)
  else
    let rs := (liveJobs s).flatMap (fun j => (j.placed.map (fun p => p.rank)).filter (fun r => r / 256 == d.val))
    let s := rs.foldl (failTile 0x8005) (setDie d.val .offline s)
    let s := (touchers s d.val).foldl (fun s j =>
      let (w, s) := fresh s
      loseWindows d.val ((List.range 64).filter (fun n => bit w n)) s j) s
    goOffline i d.val true s

def execDieFault (d : Fin 4) (s : State) : Out := .next (runDieFault d s)

/-! ## Power and cooling (R466, R467) -/

/-- POWER_SAMPLE (R466): the samples of the last 1 ms are kept. -/
def execPowerSample (milliwatt : Nat) (s : State) : Out :=
  .next { s with ls := { s.ls with samples := (s.ls.samples ++ [milliwatt]).drop (s.ls.samples.length + 1 - 100) } }

/-- A change of the lens duty, with notice 6 (R448, R466). -/
def setDuty (d : Nat) (s : State) : State :=
  if s.ls.duty = d then s else notices 6 d (liveJobs s) { s with ls := { s.ls with duty := d } }

/-- The duty after a look at the average (R466): above 3.6 kW down, below 3.4 kW up, by one sixteenth. -/
def stepDuty (s : State) : State :=
  let n := s.ls.samples.length
  let total := sumN s.ls.samples
  if n = 0 then s
  else if 3600000 * n < total then setDuty (Nat.max (s.ls.duty - 1) 4) s
  else if total < 3400000 * n then setDuty (Nat.min (s.ls.duty + 1) 16) s
  else s

/-- DUTY_STEP (R466). -/
def execDutyStep (s : State) : Out := .next (stepDuty s)

/-- A report to every host of the management list (R467): die and temperature, in a message of which the spec gives no layout (log
entry 112). -/
def tellHosts (v : Nat) (s : State) : State := s.ls.hosts.foldl (fun s h => lsSend h 0 0xFFFF (leBytes 8 v) s) s

/-- THERMAL_LIMIT (R467): at 105 degrees the duty falls to 4/16, at 115 every tile of the package halts and the hosts hear of
it; DRESUME waits until no die is at 95 or more. -/
def execThermalLimit (d : Fin 4) (celsius : Nat) (s : State) : Out :=
  let hot := s.ls.hot.filter (fun x => x != d.val)
  let s := { s with ls := { s.ls with hot := if 95 ≤ celsius then d.val :: hot else hot } }
  let s := if 105 ≤ celsius then setDuty 4 s else s
  .next (if 115 ≤ celsius then
      tellHosts (d.val + celsius * 256) (report d.val celsius ((List.range 1024).foldl (fun s r =>
        if (tileOf s r).duplex = .follower then s else debugHalt r s) s))
    else s)

/-! ## Package reset (R487) -/

/-- PACKAGE_RESET: the machine right after reset. The non-volatile store keeps the tile map and the firmware with its
versions (R461, R490); management list, node number and pod size come from board bring-up (R446, R477). -/
def execPackageReset (s : State) : Out :=
  .next { State.reset with
    ls := { Lightship.reset with
      tileMap := s.ls.tileMap, fwVersion := s.ls.fwVersion, stVersion := s.ls.stVersion, firmware := s.ls.firmware,
      stFirmware := s.ls.stFirmware, certVersion := s.ls.certVersion, certificate := s.ls.certificate, hosts := s.ls.hosts, node := s.ls.node, cn := s.ls.cn, dn := s.ls.dn },
    tap := s.tap, agenda := s.agenda, freeCtr := s.freeCtr }

/-- Whether a duty can be taken up again: of the management requests the first alone (R446). -/
def deferredReady (s : State) (x : Duty) : Bool :=
  !(x.isRequest && serveBusy s x)
    && (match x with
        | .router r => moveReady s (r.val / 256)
        | .die d => moveReady s d.val
        | .release _ => true
        | .request c => (match c.op with
          | .offline die => moveReady s die.toNat
          | .load _ | .resume => parkingDone s
          | _ => true))

/-! ## Management requests as messages (R446) -/

/-- The unit of a tile-map key, none where there is none. -/
def mapUnit (n : Nat) : Option MapUnit :=
  match n / 1024 with
  | 0 => some (.tile n)
  | 1 => some (.server (n % 1024))
  | 2 => some (.lens (n % 1024))
  | 3 => some (.link (n % 1024))
  | 4 => some (.router (n % 1024))
  | _ => none

/-- The entries that the payload of a TILEMAP request names, 8 bytes each (log entry 88). -/
def mapUnits (b : List Byte) : Option (List MapUnit) :=
  (chunks 8 b).foldr (fun e x => x.bind (fun us => (mapUnit (leNat e)).map (fun u => u :: us))) (some [])

/-- A management request as it came, decoded: opcode in byte 0, job id in bytes 2 and 3, operands from byte 8 on, payload after
byte 31 (R446; the places of the operands by log entry 88). None for another opcode. -/
def decodeRequest (q : MgmtReq) : Option MgmtCmd :=
  let b := q.bytes
  let x : W64 := BitVec.ofNat 64 (leAt b 8 8)
  let n := leAt b 16 8
  let unit : BitVec 16 := BitVec.ofNat 16 (leAt b 8 2)
  let payload := b.drop 32
  let op : Option MgmtOp :=
    if b.length < 32 then none
    else match leAt b 0 1 with
    | 0 => some (.load payload)
    | 1 => some .preempt
    | 2 => some .resume
    | 3 => some .kill
    | 4 => some .status
    | 5 => some (.dread x n)
    | 6 => some (.dwrite x (upTo n (fun i => BitVec.ofNat 64 (leAt payload (8 * i) 8))))
    | 7 => some (.dhalt unit)
    | 8 => some (.dresume unit)
    | 9 =>
      (match leAt b 8 1 with
       | 0 => (mapUnit n).map (fun u => .tilemap (.read u))
       | 1 => (mapUnits payload).map (fun us => .tilemap (.set us))
       | 2 => (mapUnits payload).map (fun us => .tilemap (.clear us))
       | _ => none)
    | 10 => some (.offline (BitVec.ofNat 8 (leAt b 8 1)))
    | 11 => some (.online (BitVec.ofNat 8 (leAt b 8 1)))
    | _ => none
  op.map (fun o => ⟨q.host, q.tag, BitVec.ofNat 16 (leAt b 2 2), o⟩)

/-- Whether the next management request has come whole and none before it is in service (R446). -/
def requestReady (s : State) : Bool :=
  !s.ls.deferred.any Duty.isRequest && (s.ls.requests.head?).any (fun q => q.recv.isNone)

end Sys2Proof.Machine
end

