-- ==== Sys2Proof/Machine/Ports.lean ====
section
/-! DEFINITION. Fabric and host ports: lock states (R487, R488), frames (R479 to R486), fabric mode (R482, R484), firmware
(R490), and the board-test port (R465). -/

namespace Sys2Proof.Machine

/-! ## Lock states (R478, R487, R488) -/

/-- Whether a port is wired at this package's place (R478). -/
def portWired (s : State) (m : Nat) : Bool :=
  let b := coordB s.ls.node.toNat
  match m with
  | 2 => b != 3
  | 3 => b != 0
  | 4 | 5 => s.ls.cn != 1
  | 6 | 7 => s.ls.dn != 1
  | _ => true

/-- The other port of a pair of packages that holds keys (R478, R479). -/
def pairPort (s : State) (m : Nat) : Option Nat :=
  let x := (portOf s m).peer
  if x = 0xFFFF then none
  else (List.range 10).find? (fun k => k != m && (portOf s k).peer == x && (portOf s k).keys)

/-- A frame goes out again at a port, under its next counter (R479, R488). -/
def sendAgain (m : Nat) (f : Frame) (s : State) : State :=
  modPort m (fun p => { p with wire := p.wire ++ [{ f with counter := p.txCount }], txCount := p.txCount + 1 }) s

/-- Frames in flight are discarded (R487). The delivery sublayer sends their packets again where another port joins the pair
(R479); else their transfers complete PEER_FAULT (R276, R484). -/
def dropFrames (m : Nat) (s : State) : State :=
  let fs := (portOf s m).wire
  fs.foldl (fun s f => match f.pkt, pairPort s m with
    | some p, some k => if portCarries s p k then sendAgain k f s else failTransfer p s
    | some p, none => failTransfer p s
    | none, _ => s) (modPort m (fun p => { p with wire := [], owed := [] }) s)

/-- The key of a delivery context of a peer: 0 the RUD context, 1 and more the ROD context of a hash lane (R479). -/
def ctxKey (peer : BitVec 16) (lane : Nat) : Nat := peer.toNat * 16 + lane

/-- The contexts of a pair are gone when no port joins it any more. -/
def closePair (m : Nat) (s : State) : State :=
  if (pairPort s m).isSome then s
  else { s with pds := s.pds.filter (fun x => x.1 / 16 != (portOf s m).peer.toNat) }

/-- The other packages of the pod (R476). -/
def podNodes (s : State) : List (BitVec 16) :=
  ((List.range s.ls.dn).flatMap (fun d => (List.range s.ls.cn).flatMap (fun c =>
    upTo 8 (fun ab => BitVec.ofNat 16 (ab + 8 * c + 256 * d))))).filter (fun n => n != s.ls.node)

/-- The lightship informs the others of the pod that a port has left RUN (R484; log entry 113). -/
def tellPod (s : State) : State := (podNodes s).foldl (fun s n => podSend n (leBytes 8 1) s) s

/-- A port leaves LOCKED, RUN or ERROR: keys erased, frames in flight discarded; the pod goes to ORDERED mode when it leaves
RUN (R484, R487). -/
def leavePort (m : Nat) (x : LockState) (s : State) : State :=
  let was := (portOf s m).st
  let s := closePair m (dropFrames m s)
  let s := modPort m (fun p => { p with
    st := x, keys := false, consec := 0, highest := 0, txCount := 0, keyAt := 0,
    peer := if x = .unlocked then 0xFFFF else p.peer }) s
  if was = .run then tellPod { s with ordered := true } else s

/-- A packet header as a station message carries it (R372, R484). -/
def headerOf (b : List Byte) : Packet where
  kind := ([PktKind.eager, .rts, .cts, .data, .abort, .nack, .ack, .stub, .refuse]).getD (leAt b 23 2 / 2 ^ 12) .refuse
  src := BitVec.ofNat 32 (leAt b 0 4)
  dst := BitVec.ofNat 32 (leAt b 4 4)
  tag := BitVec.ofNat 24 (leAt b 20 3)
  group := BitVec.ofNat 12 (leAt b 23 2)
  seq := BitVec.ofNat 32 (leAt b 8 4)
  len := leAt b 12 4
  job := BitVec.ofNat 16 (leAt b 25 2)
  offset := leAt b 16 4
  escape := false
  payload := []
  tree := []
  ordered := false
  detours := 0
  via := none

/-- A station message from the lightship of another package (R484; log entry 113): 1 a port has left RUN; 2 a packet was
discarded, whose header follows. -/
def runPodMsg (bs : List Byte) (s : State) : State :=
  match leAt bs 0 8 with
  | 1 => { s with ordered := true }
  | 2 => let p := headerOf (bs.drop 8); failReceiver p (failSender p s)
  | _ => s

/-- PORT_CONFIGURATION (R487): stored in UNLOCKED, refused elsewhere. -/
def execPortConfiguration (port : Fin 10) (c : PortConfig) (s : State) : Out :=
  .next (if (portOf s port.val).st = .unlocked then modPort port.val (fun p => { p with config := some c }) s else s)

/-- A failed bring-up: the reason is recorded, 1 SPDM, 2 a refused option (R479, R487). -/
def failPort (m why : Nat) (s : State) : State := modPort m (fun p => { p with st := .error, reason := why }) s

/-- Whether a port may have a peer: a fabric port another package, a host port a host of the management list, from which the
lightship assigns host nodes (R476, R477; log entry 113). -/
def peerMay (s : State) (m : Nat) (peer : BitVec 16) : Bool :=
  if m < 8 then decide (peer.toNat < 0x2000) else s.ls.hosts.any (fun h => nodeOf h == peer)

/-- SPDM_SESSION (R479, R487, R488): LOCKED with keys, or ERROR; a peer other than the one expected fails. -/
def execSpdmSession (port : Fin 10) (o : SpdmOutcome) (s : State) : Out :=
  let m := port.val
  .next (if (portOf s m).st ≠ .unlocked ∨ !portWired s m then s
    else match o with
      | .established peer =>
        if ((portOf s m).config.map (fun c => c.peer == peer)).getD true && peerMay s m peer then
          modPort m (fun p => { p with st := .locked, peer := peer, keys := true, highest := 0, txCount := 0, keyAt := 0,
                                       consec := 0 }) s
        else failPort m 1 s
      | .failed => failPort m 1 s
      | .refusedOption => failPort m 2 s)

/-- PORT_RUN (R487). -/
def execPortRun (port : Fin 10) (s : State) : Out :=
  .next (if (portOf s port.val).st = .locked then modPort port.val (fun p => { p with st := .run }) s else s)

/-- PORT_UNLOCK (R487): from LOCKED, RUN or ERROR; the counters of discarded frames stay. -/
def execPortUnlock (port : Fin 10) (s : State) : Out :=
  .next (if (portOf s port.val).st = .unlocked then s else leavePort port.val .unlocked s)

/-- PORT_LINK_LOSS (R487). -/
def execPortLinkLoss (port : Fin 10) (s : State) : Out :=
  .next (if (portOf s port.val).st = .run then leavePort port.val .error s else s)

/-- FABRIC_ADAPTIVE (R484). -/
def execFabricAdaptive (s : State) : Out := .next { s with ordered := false }

/-- KEY_UPDATE (R488): requested after 2^32 frames on a key. -/
def tryKeyUpdate (m : Nat) (s : State) : Option State :=
  let p := portOf s m
  if p.keys ∧ p.keyAt + 2 ^ 32 ≤ p.txCount then some (modPort m (fun p => { p with keyAt := p.txCount }) s) else none

def execKeyUpdate (port : Fin 10) (s : State) : Out := .next (orStay s (tryKeyUpdate port.val s))

/-! ## Frames (R480, R482, R486, R488) -/

/-- TAG_FAILURE (R488): the frame is discarded and counted; the sixteenth in a row takes a port in RUN to ERROR (R487). -/
def tagFailure (m : Nat) (s : State) : State :=
  let s := modPort m (fun p => { p with tagFail := Nat.min (p.tagFail + 1) 0xFFFF, consec := p.consec + 1 }) s
  if 16 ≤ (portOf s m).consec ∧ (portOf s m).st = .run then leavePort m .error s else s

/-- The hash lane of a packet (R482). -/
def hashLane (p : Packet) : Nat := (localOf p.src ^^^ localOf p.dst ^^^ p.group.toNat) % 8

/-- The delivery context of a packet: RUD for ADAPTIVE mode, ROD by hash lane for ORDERED mode (R479, R482). -/
def pdsLane (p : Packet) : Nat := if p.ordered then 1 + hashLane p else 0

/-- The contexts of a pair of packages. -/
def pdsOf (s : State) (peer : BitVec 16) (lane : Nat) : PdsCtx := SMap.getD s.pds (ctxKey peer lane) PdsCtx.reset
def setPds (s : State) (peer : BitVec 16) (lane : Nat) (c : PdsCtx) : State :=
  { s with pds := SMap.insert s.pds (ctxKey peer lane) c }

/-- Whether a context has delivered a packet (R479). -/
def PdsCtx.has (c : PdsCtx) (n : Nat) : Bool := decide (n < c.next) || c.ahead.contains n

/-- The first number that has not come moves on over those that have, with fuel for their number. -/
def PdsCtx.settle : Nat → PdsCtx → PdsCtx
  | 0, c => c
  | f + 1, c => if c.ahead.contains c.next then PdsCtx.settle f { c with next := c.next + 1, ahead := c.ahead.erase c.next } else c

/-- A context after a packet has been delivered. -/
def PdsCtx.add (c : PdsCtx) (n : Nat) : PdsCtx := PdsCtx.settle (c.ahead.length + 1) { c with ahead := c.ahead ++ [n] }

/-- Frames that the peer acknowledges are on the wire no more (R479). -/
def ackFrames (peer : BitVec 16) (acks : List (Nat × Nat)) (s : State) : State :=
  (List.range 10).foldl (fun s k =>
    if (portOf s k).peer = peer then
      modPort k (fun p => { p with wire := p.wire.filter (fun f => match f.pkt with
        | some q => !acks.contains (pdsLane q, f.psn)
        | none => true) }) s
    else s) s

/-- Whether a packet is of a kind that carries data (R252). -/
def carriesData (p : Packet) : Bool := p.kind == .eager || p.kind == .data

/-- The packets that go on from a frame: the entry of this node is stripped, the escape bit is clear (R480, R486); a header in
a lower class than its own has left the escape class. -/
def framePackets (s : State) (cls : Fin 3) (p : Packet) : List Packet :=
  let p := { p with escape := false, via := none, unescaped := cls != 2 && !carriesData p }
  match p.tree with
  | (w, _) :: _ => if treeKind w = 2 ∧ w.extractLsb' 0 16 = s.ls.node then stripTop p else [p]
  | [] => [p]

/-- The delivery sublayer takes a packet of a frame (R479): one that has been delivered is only acknowledged, one of an ORDERED
context goes on in its order alone. -/
def takePacket (m : Nat) (f : Frame) (q : Packet) (s : State) : State :=
  let peer := (portOf s m).peer
  let lane := pdsLane q
  let c := pdsOf s peer lane
  let owe (s : State) : State := modPort m (fun p => { p with owed := p.owed ++ [(lane, f.psn)] }) s
  if c.has f.psn then owe s
  else if q.ordered ∧ f.psn ≠ c.next then s
  else (framePackets s f.cls q).foldl (fun s x => injectRouted (2048 + portStack m) 1 x s)
    (owe (setPds s peer lane (c.add f.psn)))

/-- FRAME (R479, R480, R487, R488): checked, taken once, stripped and routed on. -/
def execFrame (port : Fin 10) (f : Frame) (s : State) : Out :=
  let m := port.val
  let p := portOf s m
  .next (if p.st ≠ .locked ∧ p.st ≠ .run then s
    else if !f.tagOk ∨ f.counter < p.highest then tagFailure m s
    else
      let s := ackFrames p.peer f.acks (modPort m (fun p => { p with highest := f.counter + 1, consec := 0 }) s)
      match f.pkt with
      | some q => if portCarries s q m then takePacket m f q s else s
      | none => s)

/-- The traffic class of a packet (R480). -/
def classOf (p : Packet) : Fin 3 :=
  match pktVc p with
  | 0 => 2
  | 1 => 1
  | _ => 0

/-- The frame of a packet as a bridge sends it (R479, R480, R488): a fresh entropy value in ADAPTIVE mode, else the hash lane. -/
def mkFrame (p : Packet) (counter n psn : Nat) (acks : List (Nat × Nat)) : Frame :=
  ⟨some p, counter, true, if p.ordered then BitVec.ofNat 20 (hashLane p) else Config.entropy n, classOf p, psn, acks⟩

/-- The bytes of a frame on the wire of a port (R480): Ethernet, IPv6, UDP and PDS header, then device header, tree prefix and
payload encrypted, the tag, and the frame check sequence (R488; what R480 does not state is free, log entry 114). -/
def frameBytes (m : Nat) (f : Frame) : List Byte :=
  let free (h n : Nat) : List Byte := upTo n (fun i => Config.headerByte h m i)
  let body := match f.pkt with
    | some p => headerBytes p ++ p.tree.flatMap (fun e => leBytes 8 e.1.toNat ++ leBytes 8 e.2.toNat) ++ p.payload
    | none => []
  let sealed := (body.zipIdx).map (fun x => x.1 ^^^ Config.gcmStream m f.counter x.2)
  let ip := leBytes 4 (96 * 2 ^ 24 + f.cls.val * 2 ^ 20 + f.label.toNat) |>.reverse
  let clear := ip ++ free 1 36 ++ free 2 8
  free 0 14 ++ clear ++ free 3 16 ++ sealed ++ leBytes 16 (Config.gcmTag m f.counter clear body).toNat ++ free 4 4

/-- The packet that a bridge sends next, its place, and the arbitration after it (R377, R480). -/
def nextOut (p : PortSt) : Option (Packet × Nat × OutPort) :=
  match pickTier (p.out.used + 1) p.out (fun v => p.queue.any (fun q => pktVc q == v)) false with
  | some (.vc v, o) => (p.queue.zipIdx.find? (fun q => pktVc q.1 == v)).map (fun q => (q.1, q.2, o))
  | _ => none

/-- The bytes of a frame (R480). -/
def frameLen (f : Frame) : Nat :=
  98 + (match f.pkt with
    | some p => 32 + 16 * p.tree.length + p.payload.length
    | none => 0)

/-- The clk that a frame takes on the wire: 1.6 Tbit/s (R478). -/
def frameClks (f : Frame) : Nat := ceilDiv (3 * frameLen f) 400

/-- A packet goes out in a frame of its context, with what the port has to acknowledge (R479). -/
def sendFrame (m : Nat) (q : Packet) (s : State) : State :=
  let p := portOf s m
  let c := pdsOf s p.peer (pdsLane q)
  let f := mkFrame q p.txCount s.freeCtr c.sent p.owed
  let s := setPds { s with freeCtr := s.freeCtr + 1 } p.peer (pdsLane q) { c with sent := c.sent + 1 }
  modPort m (fun p => { p with
    wire := p.wire ++ [f], txCount := p.txCount + 1, owed := [], freeAt := s.cycle + frameClks f }) s

/-- A bridge sends a packet as a frame, or, where the port carries it no more, the packet is routed anew (R483, R484,
R487); a port with nothing to send acknowledges what it has to (R479). -/
def drainPort (m : Nat) (s : State) : State :=
  let p := portOf s m
  if s.cycle < p.freeAt then s
  else match nextOut p with
  | none =>
    if p.owed.isEmpty ∨ !p.keys then s
    else modPort m (fun p => { p with
      bare := some ⟨none, p.txCount, true, 0, 2, 0, p.owed⟩, txCount := p.txCount + 1, owed := [] }) s
  | some (q, i, o) =>
    let s := modPort m (fun p => { p with queue := p.queue.eraseIdx i, out := o }) s
    if portCarries s q m then sendFrame m q s
    else injectRouted (2048 + portStack m) 1 { q with via := none } s

/-- PACKET_DELIVERY_RESEND (R479, R488): the oldest frame that is not acknowledged goes out again under the next counter, and keeps
its place, so that the order of its context stands (R482). -/
def execPacketDeliveryResend (port : Fin 10) (s : State) : Out :=
  .next (modPort port.val (fun p => match p.wire with
    | f :: rest =>
      if p.st = .locked ∨ p.st = .run then
        { p with wire := { f with counter := p.txCount } :: rest, txCount := p.txCount + 1 }
      else p
    | [] => p) s)

/-! ## Firmware (R490) -/

/-- The security version of an image: the first 8 of the bytes that its signature covers (log entry 115). -/
def imageVersion (img : FirmwareImage) : Nat := leAt img.bytes 0 8

/-- The version that the non-volatile store holds for an image of a kind (R490). -/
def storedVersion (l : Lightship) : ImageKind → Nat
  | .lightship => l.fwVersion
  | .station => l.stVersion
  | .certificate => l.certVersion

/-- Whether an image is accepted: its signature over the digest is valid, its version not below the stored one (R490). -/
def imageAccepted (img : FirmwareImage) (l : Lightship) : Bool :=
  Config.ed448Valid img.signature (shake256 img.bytes) && decide (storedVersion l img.kind ≤ imageVersion img)

/-- What follows the security version. -/
def imageBody (img : FirmwareImage) : List Byte := img.bytes.drop 8

/-- An accepted image is installed, and its version stored (R490); lightship firmware may set the management list (R446, R477). -/
def installImage (img : FirmwareImage) (l : Lightship) : Lightship :=
  match img.kind with
  | .lightship => { l with
      fwVersion := imageVersion img, firmware := imageBody img, hosts := (Config.managementList (imageBody img)).getD l.hosts }
  | .station => { l with stVersion := imageVersion img, stFirmware := imageBody img }
  | .certificate => { l with certVersion := imageVersion img, certificate := imageBody img }

/-- FIRMWARE_IMAGE (R490). -/
def execFirmwareImage (img : FirmwareImage) (s : State) : Out :=
  .next (if imageAccepted img s.ls then { s with ls := installImage img s.ls } else s)

/-! ## The board-test port (R465) -/

/-- Shift bits through a register, the bit nearest the output first: what comes out, and what it then holds. -/
def shiftBits (reg tdi : List Bool) : List Bool × List Bool := ((reg ++ tdi).take tdi.length, (reg ++ tdi).drop tdi.length)

/-- The levels of the signal balls at a capture (log entry 6). -/
def captureBalls (k : Nat) : List Bool := upTo Config.ballCount (fun n => Config.ball n k)

/-- BYPASS (R465). -/
def execBypass (tdi : List Bool) (s : State) : Out :=
  let (out, reg) := shiftBits [false] tdi
  .next { s with tap := { s.tap with ir := .bypass, bypass := reg.headD false, tdo := out, driven := [] } }

/-- SAMPLE/PRELOAD (R465). -/
def execSamplePreload (tdi : List Bool) (s : State) : Out :=
  let (out, reg) := shiftBits (captureBalls s.tap.captures) tdi
  .next { s with tap := { s.tap with
    ir := .samplePreload, boundary := reg, tdo := out, driven := [], captures := s.tap.captures + 1 } }

/-- EXTEST (R465): the boundary register drives the balls. -/
def execExtest (tdi : List Bool) (s : State) : Out :=
  let (out, reg) := shiftBits (captureBalls s.tap.captures) tdi
  .next { s with tap := { s.tap with
    ir := .extest, boundary := reg, tdo := out, driven := reg, captures := s.tap.captures + 1 } }

/-- IDCODE (R465). -/
def execIdcode (tdi : List Bool) (s : State) : Out :=
  let (out, _) := shiftBits (upTo 32 (fun i => Config.idcode.getLsbD i)) tdi
  .next { s with tap := { s.tap with ir := .idcode, tdo := out, driven := [] } }

end Sys2Proof.Machine
end

