-- ==== Sys2Proof/Machine/Debug.lean ====
section
/-! DEFINITION. The records of the debug window (R459): spaces 5, 6 and 8, and the bank states of space 4. The spec names what
they hold and gives no places: those here are the model's (log entry 80). -/

namespace Sys2Proof.Machine

/-- The word that tells whether a record is there. -/
def wordIf (b : Bool) (w : W64) : W64 := if b then w else 0

/-- A word by its place in a list of words, 0 beyond. -/
def wordAt (ws : List W64) (i : Nat) : W64 := ws.getD i 0

/-! ## Message slots and their lists (R253, R254, R257) -/

/-- The state of a slot by its code (R254). -/
def slotCode : Nat → SlotState
  | 1 => .waiting
  | 2 => .posted
  | 3 => .header
  | 4 => .data
  | 5 => .ordered
  | 6 => .complete
  | _ => .free

/-- A slot with a word of its status record written. -/
def putStatusRec (word1 : Bool) (v : W64) (m : MSlot) : MSlot :=
  if word1 then { m with msgLen := fld v 32 32, dlvLen := fld v 0 32 }
  else { m with recPeer := v.extractLsb' 32 32, recTag := v.extractLsb' 8 24, st := slotCode (fld v 4 4), status := v.extractLsb' 0 4 }

/-- The posted receives of some slots, in posted order (R257). -/
def postedIn (ss : SMap MSlot) : List (Nat × MSlot) :=
  sortBy (fun a b => decide (a.2.stamp ≤ b.2.stamp)) (ss.filter (fun p => !p.2.isSend && p.2.st == .posted))

/-- The word of an entry of the posted list: the slot, and bit 63. -/
def postedWord (ss : SMap MSlot) (i : Nat) : W64 :=
  match (postedIn ss)[i]? with
  | some (n, _) => BitVec.ofNat 64 (2 ^ 63 + n)
  | none => 0

/-- A write of an entry of the posted list: the slot named takes that place. -/
def putPosted (ss : SMap MSlot) (i : Nat) (v : W64) : SMap MSlot :=
  match (postedIn ss)[i]?, SMap.find ss (fld v 0 8) with
  | some (_, x), some m => SMap.insert ss (fld v 0 8) { m with stamp := x.stamp, st := .posted }
  | _, _ => ss

/-- The pool map, 64 units a word: 1 for a unit that is taken (R262). -/
def poolWord (us : List Nat) (i : Nat) : W64 :=
  BitVec.ofNat 64 (((us.filter (fun u => u / 64 == i)).eraseDups).foldl (fun a u => a + 2 ^ (u % 64)) 0)

/-- A write of a word of the pool map. -/
def putPool (us : List Nat) (i : Nat) (v : W64) : List Nat :=
  us.filter (fun u => u / 64 != i) ++ ((List.range 64).filter (fun b => bit v b)).map (fun b => 64 * i + b)

/-- What a context holds of space 5: 0x1000 the status records, two words a slot; 0x2000 the posted list; 0x9000 the pool map. -/
def ctxWord (ss : SMap MSlot) (pool : List Nat) (i : Nat) : Option W64 :=
  if 0x1000 ≤ i ∧ i < 0x2000 then some (statusRec (SMap.find ss ((i - 0x1000) / 2)) (i % 2 == 1))
  else if 0x2000 ≤ i ∧ i < 0x3000 then some (postedWord ss (i - 0x2000))
  else if 0x9000 ≤ i ∧ i < 0xA000 then some (poolWord pool (i - 0x9000))
  else none

/-- A context after such a word is written: slots and pool. -/
def putCtxWord (i : Nat) (v : W64) (ss : SMap MSlot) (pool : List Nat) : Option (SMap MSlot × List Nat) :=
  if 0x1000 ≤ i ∧ i < 0x2000 then
    (SMap.find ss ((i - 0x1000) / 2)).map (fun m => (SMap.insert ss ((i - 0x1000) / 2) (putStatusRec (i % 2 == 1) v m), pool))
  else if 0x2000 ≤ i ∧ i < 0x3000 then some (putPosted ss (i - 0x2000) v, pool)
  else if 0x9000 ≤ i ∧ i < 0xA000 then some (ss, putPool pool (i - 0x9000) v)
  else none

/-! ## The shared store (R256, R275) -/

/-- A word of a header-store record: the header of R372 in four words, then [0] whether it is a stub and the pool units it holds. -/
def hdrWord (h : HdrRec) (w : Nat) : W64 :=
  if w < 4 then BitVec.ofNat 64 (leAt (headerBytes h.pkt) (8 * w) 8)
  else BitVec.ofNat 64 (ofBool h.stub + 256 * h.units.length)

/-- A header-store record with a word written. -/
def putHdrWord (w : Nat) (v : W64) (h : HdrRec) : HdrRec :=
  if w < 4 then
    let bs := Mem.writeN (Mem.writeN [] 0 (headerBytes h.pkt)) (8 * w) (leBytes 8 v.toNat)
    let p := headerOf (Mem.readN bs 0 32)
    { h with pkt := { h.pkt with
        kind := p.kind, src := p.src, dst := p.dst, tag := p.tag, group := p.group, seq := p.seq, len := p.len, job := p.job,
        offset := p.offset } }
  else { h with stub := bit v 0 }

/-- The key of a stream: peer, group and job. -/
def streamKey (peer : W32) (group : BitVec 12) (job : BitVec 16) : W64 := job ++ (0 : BitVec 4) ++ group ++ peer

/-- A word of a send stream: its key; the next number and the messages open. -/
def sendWord (x : SendStream) (w : Nat) : W64 :=
  if w = 0 then streamKey x.peer x.group x.job else BitVec.ofNat 64 (x.next.toNat + x.open_ % 2 ^ 31 * 2 ^ 32)

def putSendWord (w : Nat) (v : W64) (x : SendStream) : SendStream :=
  if w = 0 then { x with peer := v.extractLsb' 0 32, group := v.extractLsb' 32 12, job := v.extractLsb' 48 16 }
  else { x with next := v.extractLsb' 0 32, open_ := fld v 32 31 }

/-- A word of a receive stream: its key; the next number, whether it stands refused, and the headers held. -/
def recvWord (x : RecvStream) (w : Nat) : W64 :=
  if w = 0 then streamKey x.peer x.group x.job
  else BitVec.ofNat 64 (x.next.toNat + ofBool x.refused * 2 ^ 32 + x.held.length % 2 ^ 16 * 2 ^ 33)

def putRecvWord (w : Nat) (v : W64) (x : RecvStream) : RecvStream :=
  if w = 0 then { x with peer := v.extractLsb' 0 32, group := v.extractLsb' 32 12, job := v.extractLsb' 48 16 }
  else { x with next := v.extractLsb' 0 32, refused := bit v 32 }

/-- The word of one record of a list, 0 where there is none. -/
def recWord {α : Type} (xs : List α) (i : Nat) (f : α → W64) : W64 :=
  match xs[i]? with
  | some x => f x
  | none => 0

/-- What the shared store holds of space 5: 0 the quiesce; 0x3000 the header store, five words a record; 0x5000 and 0x7000 the send
and the receive streams, two words each; 0xA000 the status records of the transfers that a server tile or the lightship has
completed, oldest first. -/
def sharedWord (ms : MsgShared) (i : Nat) : Option W64 :=
  if i = 0 then some (BitVec.ofNat 64 (ofBool (!ms.quiesced)))
  else if 0x3000 ≤ i ∧ i < 0x5000 then some (recWord ms.hdrs ((i - 0x3000) / 5) (fun h => hdrWord h ((i - 0x3000) % 5)))
  else if 0x5000 ≤ i ∧ i < 0x7000 then some (recWord ms.sends ((i - 0x5000) / 2) (fun x => sendWord x (i % 2)))
  else if 0x7000 ≤ i ∧ i < 0x9000 then some (recWord ms.recvs ((i - 0x7000) / 2) (fun x => recvWord x (i % 2)))
  else if 0xA000 ≤ i ∧ i < 0xB000 then
    some (recWord ms.done ((i - 0xA000) / 2) (fun d => if i % 2 = 0 then d.1 else d.2))
  else none

/-- The shared store after such a word is written. -/
def putSharedWord (i : Nat) (v : W64) (ms : MsgShared) : Option MsgShared :=
  if i = 0 then some { ms with quiesced := !bit v 0 }
  else if 0x3000 ≤ i ∧ i < 0x5000 then
    some { ms with hdrs := ms.hdrs.modify ((i - 0x3000) / 5) (putHdrWord ((i - 0x3000) % 5) v) }
  else if 0x5000 ≤ i ∧ i < 0x7000 then some { ms with sends := ms.sends.modify ((i - 0x5000) / 2) (putSendWord (i % 2) v) }
  else if 0x7000 ≤ i ∧ i < 0x9000 then some { ms with recvs := ms.recvs.modify ((i - 0x7000) / 2) (putRecvWord (i % 2) v) }
  else none

/-! ## Queued commands with their captured registers (R211, R229) -/

/-- The twelve words of a command: the four descriptor words, its operation and tokens, and the captured registers. -/
def cmdWords (c : KCmd) : List W64 :=
  [c.d0, c.d1, c.d2, c.d3,
   BitVec.ofNat 64 (c.op.toNat + c.sub.toNat * 2 ^ 7 + c.tout.toNat * 2 ^ 16 + c.tin0.toNat * 2 ^ 22 + c.tin1.toNat * 2 ^ 28
     + c.tin2.toNat * 2 ^ 34 + c.job.toNat * 2 ^ 40 + ofBool c.station * 2 ^ 56 + 2 ^ 63),
   c.rnd, c.cvt, c.fmta, c.fmtb, c.scla, c.sclb, BitVec.ofNat 64 c.stamp]

/-- A command with one of its words written. -/
def putCmdWord (w : Nat) (v : W64) (c : KCmd) : KCmd :=
  match w with
  | 0 => { c with d0 := v }
  | 1 => { c with d1 := v }
  | 2 => { c with d2 := v }
  | 3 => { c with d3 := v }
  | 4 => { c with
      op := v.extractLsb' 0 7, sub := v.extractLsb' 7 2, tout := v.extractLsb' 16 6, tin0 := v.extractLsb' 22 6,
      tin1 := v.extractLsb' 28 6, tin2 := v.extractLsb' 34 6, job := v.extractLsb' 40 16, station := bit v 56 }
  | 5 => { c with rnd := v }
  | 6 => { c with cvt := v }
  | 7 => { c with fmta := v }
  | 8 => { c with fmtb := v }
  | 9 => { c with scla := v }
  | 10 => { c with sclb := v }
  | 11 => { c with stamp := v.toNat }
  | _ => c

/-- A word of the commands of a queue, sixteen places each. -/
def queueWord (q : List KCmd) (i : Nat) : W64 := recWord q (i / 16) (fun c => wordAt (cmdWords c) (i % 16))

/-- A queue with one of its words written. -/
def putQueueWord (i : Nat) (v : W64) (q : List KCmd) : List KCmd := q.modify (i / 16) (putCmdWord (i % 16) v)

/-- The word of a queued flash. -/
def flashWord (q : List FlashEntry) (i : Nat) : W64 := recWord q i (fun f => BitVec.ofNat 64 (f.addr + f.mask.toNat * 2 ^ 32 + 2 ^ 63))

def putFlashWord (i : Nat) (v : W64) (q : List FlashEntry) : List FlashEntry :=
  q.modify i (fun f => { f with addr := fld v 0 21, mask := v.extractLsb' 32 16 })

/-- What an engine context holds beside slots and pool (R454): 0xB000 the copy queue, 0xC000 the lens queue, 0xD000 the flash queue,
0xE000 the SCAN commands; 0xF000 the token counts, 0xF100 the lens status words, 0xF200 and 0xF201 the fault words, 0xF210 the
pending counts (R386). -/
def engWord (c : EngineCtx) (i : Nat) : Option W64 :=
  if 0xB000 ≤ i ∧ i < 0xC000 then some (queueWord c.copyQ (i - 0xB000))
  else if 0xC000 ≤ i ∧ i < 0xD000 then some (queueWord c.lensQ (i - 0xC000))
  else if 0xD000 ≤ i ∧ i < 0xE000 then some (flashWord c.flashQ (i - 0xD000))
  else if 0xE000 ≤ i ∧ i < 0xF000 then some (queueWord c.scanQ (i - 0xE000))
  else if 0xF000 ≤ i ∧ i < 0xF040 then some (BitVec.ofNat 64 (vget c.tok (i - 0xF000) 0))
  else if 0xF100 ≤ i ∧ i < 0xF140 then some (vget c.lensStatus (i - 0xF100) 0)
  else if i = 0xF200 then some c.lensFault
  else if i = 0xF201 then some c.copyFault
  else if 0xF210 ≤ i ∧ i < 0xF214 then some (BitVec.ofNat 64 (vget c.pending (i - 0xF210) 0))
  else none

/-- A context after such a word is written. -/
def putEngWord (i : Nat) (v : W64) (c : EngineCtx) : Option EngineCtx :=
  if 0xB000 ≤ i ∧ i < 0xC000 then some { c with copyQ := putQueueWord (i - 0xB000) v c.copyQ }
  else if 0xC000 ≤ i ∧ i < 0xD000 then some { c with lensQ := putQueueWord (i - 0xC000) v c.lensQ }
  else if 0xD000 ≤ i ∧ i < 0xE000 then some { c with flashQ := putFlashWord (i - 0xD000) v c.flashQ }
  else if 0xE000 ≤ i ∧ i < 0xF000 then some { c with scanQ := putQueueWord (i - 0xE000) v c.scanQ }
  else if 0xF000 ≤ i ∧ i < 0xF040 then some { c with tok := vset c.tok (i - 0xF000) v.toNat }
  else if 0xF100 ≤ i ∧ i < 0xF140 then some { c with lensStatus := vset c.lensStatus (i - 0xF100) v }
  else if i = 0xF200 then some { c with lensFault := v }
  else if i = 0xF201 then some { c with copyFault := v }
  else if 0xF210 ≤ i ∧ i < 0xF214 then some { c with pending := vset c.pending (i - 0xF210) v.toNat }
  else none

/-! ## The spaces (R459) -/

/-- The slots of a tile by number: its job's, then from 128 on its station's. -/
def tileSlots (t : Tile) : SMap MSlot := t.eng.slots ++ t.stSlots.map (fun p => (p.1 + 128, p.2))

/-- Space 5 of a unit with a message engine. -/
def recordWord (s : State) (unit i : Nat) : Option W64 :=
  let c := if unit < 1024 then (tileOf s unit).eng else unitCtx s unit
  let ss := if unit < 1024 then tileSlots (tileOf s unit) else c.slots
  (sharedWord (msgOf s unit) i).or (ctxWord ss c.pool i)

/-- A tile after a word of space 5 is written. -/
def putRecordWord (i : Nat) (v : W64) (t : Tile) : Option Tile :=
  match putSharedWord i v t.msg with
  | some ms => some { t with msg := ms }
  | none => (putCtxWord i v (tileSlots t) t.eng.pool).map (fun x => { t with
      eng := { t.eng with slots := x.1.filter (fun p => p.1 < 128), pool := x.2 },
      stSlots := (x.1.filter (fun p => 128 ≤ p.1)).map (fun p => (p.1 - 128, p.2)) })

/-- Space 6: the parked context in the places of space 5, with its queues; word 0 tells that it is there and its job. -/
def parkedWord (t : Tile) (i : Nat) : Option W64 :=
  match t.parked with
  | none => some 0
  | some (id, c) =>
    if i = 0 then some (BitVec.ofNat 64 (1 + id.toNat * 2 ^ 16)) else (engWord c i).or (ctxWord c.slots c.pool i)

/-- A tile after a word of space 6 is written. -/
def putParkedWord (i : Nat) (v : W64) (t : Tile) : Option Tile :=
  t.parked.bind (fun (id, c) =>
    if i = 0 then some { t with parked := if bit v 0 then some (v.extractLsb' 16 16, c) else none }
    else match putEngWord i v c with
      | some c => some { t with parked := some (id, c) }
      | none => (putCtxWord i v c.slots c.pool).map (fun x => { t with parked := some (id, { c with slots := x.1, pool := x.2 }) }))

/-- Space 8 of a tile: 0 the copy queue, 0x1000 its station entry, 0x1010 the copy command in execution; 0x2000 the lens queue,
0x3000 its station entry; 0x4000 the two lens slots and 0x5000 the accepted bank commands of its cluster; sixteen places a
command. -/
def entryWord (s : State) (r i : Nat) : Option W64 :=
  let t := tileOf s r
  let l := lensOf s (clusterOf r)
  if i < 0x1000 then some (queueWord t.eng.copyQ i)
  else if i < 0x1010 then some (queueWord t.stCopy.toList (i - 0x1000))
  else if i < 0x1020 then some (queueWord (t.copyRun.map (fun x => x.cmd)).toList (i - 0x1010))
  else if 0x2000 ≤ i ∧ i < 0x3000 then some (queueWord t.eng.lensQ (i - 0x2000))
  else if 0x3000 ≤ i ∧ i < 0x3010 then some (queueWord t.stLens.toList (i - 0x3000))
  else if 0x4000 ≤ i ∧ i < 0x4020 then
    some (queueWord ((vget l.slots ((i - 0x4000) / 16) none).map (fun x => x.cmd)).toList (i % 16))
  else if 0x5000 ≤ i ∧ i < 0x6000 then some (queueWord (l.accepted.map (fun x => x.cmd)) (i - 0x5000))
  else none

/-- The state after a word of space 8 is written. -/
def putEntryWord (r i : Nat) (v : W64) (s : State) : Option State :=
  let one (c : Option KCmd) (k : Nat) : Option KCmd := c.map (putCmdWord k v)
  if i < 0x1000 then some (modTile s r (fun t => { t with eng := { t.eng with copyQ := putQueueWord i v t.eng.copyQ } }))
  else if i < 0x1010 then some (modTile s r (fun t => { t with stCopy := one t.stCopy (i % 16) }))
  else if i < 0x1020 then some (modTile s r (fun t => { t with
    copyRun := t.copyRun.map (fun x => { x with cmd := putCmdWord (i % 16) v x.cmd }) }))
  else if 0x2000 ≤ i ∧ i < 0x3000 then
    some (modTile s r (fun t => { t with eng := { t.eng with lensQ := putQueueWord (i - 0x2000) v t.eng.lensQ } }))
  else if 0x3000 ≤ i ∧ i < 0x3010 then some (modTile s r (fun t => { t with stLens := one t.stLens (i % 16) }))
  else if 0x4000 ≤ i ∧ i < 0x4020 then
    some (modLens s (clusterOf r) (fun l => { l with
      slots := vset l.slots ((i - 0x4000) / 16) ((vget l.slots ((i - 0x4000) / 16) none).map (fun x =>
        { x with cmd := putCmdWord (i % 16) v x.cmd })) }))
  else if 0x5000 ≤ i ∧ i < 0x6000 then
    some (modLens s (clusterOf r) (fun l => { l with
      accepted := l.accepted.modify ((i - 0x5000) / 16) (fun x => { x with cmd := putCmdWord (i % 16) v x.cmd }) }))
  else none

/-- A bank with its state word written (R356). -/
def putBankWord (v : W64) : Bank where
  st := match fld v 0 2 with
    | 0 => .free
    | 1 => .reserved
    | 2 => .sum
    | _ => .rank
  tile := fld v 2 3
  k := fld v 8 5
  owner := if bit v 7 then some (v.extractLsb' 5 2) else none

/-- Space 4: two words of a row, and from 0x20000 on the states of the banks of the cluster. -/
def accRecord (s : State) (c i : Nat) : Option W64 :=
  if i < 0x20000 then some (accWord s c (i / 32) (2 * (i % 32) + 1) ++ accWord s c (i / 32) (2 * (i % 32)))
  else if i < 0x20080 then some (bankWord (lensOf s c) (i - 0x20000))
  else none

/-- The state after a word of space 4 is written. -/
def putAccRecord (c i : Nat) (v : W64) (s : State) : Option State :=
  if i < 0x20000 then some (putAccWords c (i / 32) (2 * (i % 32)) [v.extractLsb' 0 32, v.extractLsb' 32 32] s)
  else if i < 0x20080 then
    some (modLens s c (fun l => { l with
      banks := SMap.insert l.banks (i - 0x20000) (putBankWord v) }))
  else none

end Sys2Proof.Machine
end

