-- ==== Sys2Proof/Machine/Readback.lean ====
section
/-! DEFINITION. The debug window (R459): DREAD and DWRITE, and the port state word (R489). -/

namespace Sys2Proof.Machine

/-- The unit, space and index of a debug address (R459). -/
def dbgUnit (a : W64) : Nat := fld a 0 16
def dbgSpace (a : W64) : Nat := fld a 16 8
def dbgIndex (a : W64) : Nat := fld a 24 40

/-- The code of a port's state (R489). -/
def lockCode : LockState → Nat
  | .unlocked => 0
  | .locked => 1
  | .run => 2
  | .error => 3

/-- The port state word (R489). -/
def portWord (s : State) (m : Nat) : W64 :=
  let p := portOf s m
  BitVec.ofNat 64 (Nat.min p.tagFail 0xFFFF * 2 ^ 48 + p.peer.toNat * 2 ^ 32 + ofBool s.ordered * 128 + lockCode p.st)

/-- A tile as one level sees it: which copy of a trap register a debug access reaches (R459). -/
def atLevel (station : Bool) (t : Tile) : Tile := { t with keeper := { t.keeper with station := station } }

/-- Space 7: the counters of a tile's router, the state and flit words of the links (R420), and the port words (R459, R489). The
places of the first are the model's (log entry 108): 0 the escapes and 1 the corrected cells of the unit's router; 0x10 + l the
state word of link l, 0x20 + l and 0x30 + l its flit words from A and from B. -/
def dbgCounter (s : State) (unit i : Nat) : Option W64 :=
  if i = 0 then some (BitVec.ofNat 64 (routerOf s unit).escapes)
  else if i = 1 then some (BitVec.ofNat 64 (routerOf s unit).corrected)
  else if 0x10 ≤ i ∧ i < 0x1C then some (linkWord s (linkOf s (i - 0x10)))
  else if 0x20 ≤ i ∧ i < 0x2C then some (flitWord (linkOf s (i - 0x20)).ab)
  else if 0x30 ≤ i ∧ i < 0x3C then some (flitWord (linkOf s (i - 0x30)).ba)
  else if 0x100 ≤ i ∧ i < 0x10A then some (portWord s (i - 0x100))
  else none

/-- The word at a place of the debug window, none where the spec states no value for it. -/
def dbgRead (s : State) (unit space i : Nat) : Option W64 :=
  let r := holder s unit
  let t := tileOf s r
  match space with
  | 0 => if i < 0x40000 then some (BitVec.ofNat 64 (Mem.load t.sram (8 * i) 8)) else none
  | 1 => if i < 0x2000 ∧ crAssigned (i % 0x1000) then some (crRead s.cycle (atLevel (i / 0x1000 == 1) t) (i % 0x1000)) else none
  | 2 => (selector (BitVec.ofNat 64 i)).bind (fun x => lstateItem t s.cycle x.1 x.2.1 x.2.2)
  | 3 => if i < 4096 then some (half64 (SMap.getD t.ws (i / 2) 0) (i % 2)) else none
  | 4 => accRecord s (clusterOf r) i
  | 5 => recordWord s (if unit < 1024 then r else unit) i
  | 6 => parkedWord t i
  | 7 => dbgCounter s unit i
  | 8 => entryWord s r i
  | 9 => some (match SMap.find s.ls.tileMap i with
    | some why => BitVec.ofNat 64 (1 + why * 16)
    | none => 0)
  | _ => none

/-- Whether a debug address names a unit and a space (R459): of a server tile and of the lightship, the records of its message
engine. -/
def dbgOk (a : W64) : Bool :=
  decide (dbgSpace a ≤ 9) && (dbgSpace a == 7 || dbgSpace a == 9 || decide (dbgUnit a < 1024)
    || (dbgSpace a == 5 && (decide (0x400 ≤ dbgUnit a ∧ dbgUnit a < 0x420) || dbgUnit a == lsRank)))

/-- The words of a read: one that the spec gives no value is free. -/
def dbgWords (unit space : Nat) : Nat → Nat → State → List W64 × State
  | _, 0, s => ([], s)
  | i, n + 1, s =>
    let (w, s) := match dbgRead s unit space i with
      | some w => (w, s)
      | none => fresh s
    let (ws, s) := dbgWords unit space (i + 1) n s
    (w :: ws, s)

/-- DREAD (R459). -/
def runDread (host : W32) (tag : BitVec 24) (addr : W64) (count : Nat) (s : State) : State :=
  if !dbgOk addr then lsReply host tag 15 0 [] s
  else
    let (ws, s) := dbgWords (dbgUnit addr) (dbgSpace addr) (dbgIndex addr) count s
    lsReply host tag 0 0 (ws.flatMap (fun w => leBytes 8 w.toNat)) s

def execDread (host : W32) (tag : BitVec 24) (job : BitVec 16) (addr : W64) (count : Nat) (s : State) : Out :=
  .next (hostServe ⟨host, tag, job, .dread addr count⟩ (runDread host tag addr count) s)

/-- Whether a tile is halted or parked, so that the window may write it (R459). -/
def dbgHalted (s : State) (r : Nat) : Bool :=
  let t := tileOf s r
  t.keeper.debugHalt || t.keeper.halted || !t.keeper.started
    || ((liveJobs s).any (fun j => j.st == .parked && j.placed.any (fun p => p.rank == r)))

/-- A tile after a write of one word, none where the place takes no write. -/
def dbgTile (r now space i : Nat) (v : W64) (t : Tile) : Option Tile :=
  match space with
  | 0 => if i < 0x40000 then some { t with sram := Mem.store t.sram (8 * i) 8 v.toNat } else none
  | 1 =>
    if i < 0x2000 ∧ crAssigned (i % 0x1000) then
      (crPut r (atLevel (i / 0x1000 == 1) t) (i % 0x1000) v).map (atLevel t.keeper.station)
    else none
  | 2 => (selector (BitVec.ofNat 64 i)).bind (fun x => lwriteItem now x.1 x.2.1 x.2.2 v t)
  | 3 =>
    if i < 4096 then some { t with ws := SMap.insert t.ws (i / 2) (putHalf (SMap.getD t.ws (i / 2) 0) (i % 2) v) } else none
  | 5 => putRecordWord i v t
  | 6 => putParkedWord i v t
  | _ => none

/-- The state after a write of one word (R459). -/
def dbgWrite (unit space i : Nat) (v : W64) (s : State) : Option State :=
  let r := holder s unit
  if space = 4 then putAccRecord (clusterOf r) i v s
  else if space = 8 then putEntryWord r i v s
  else (dbgTile r s.cycle space i v (tileOf s r)).map (setTile s r)

/-- The state after a write of some words. -/
def dbgWriteAll (unit space : Nat) : Nat → List W64 → State → Option State
  | _, [], s => some s
  | i, w :: ws, s => (dbgWrite unit space i w s).bind (dbgWriteAll unit space (i + 1) ws)

/-- DWRITE (R459): on a halted or parked tile alone. -/
def runDwrite (host : W32) (tag : BitVec 24) (addr : W64) (words : List W64) (s : State) : State :=
  if !dbgOk addr || decide (1024 ≤ dbgUnit addr) || !dbgHalted s (holder s (dbgUnit addr)) then lsReply host tag 15 0 [] s
  else match dbgWriteAll (dbgUnit addr) (dbgSpace addr) (dbgIndex addr) words s with
    | some s => lsReply host tag 0 0 [] s
    | none => lsReply host tag 15 0 [] s

def execDwrite (host : W32) (tag : BitVec 24) (job : BitVec 16) (addr : W64) (words : List W64) (s : State) : Out :=
  .next (hostServe ⟨host, tag, job, .dwrite addr words⟩ (runDwrite host tag addr words) s)

/-! ## The requests in their turn (R446) -/

/-- The effect of a management request. -/
def runRequest (c : MgmtCmd) (s : State) : State :=
  match c.op with
  | .load b => runLoad c.host c.tag c.job b s
  | .preempt => runPreempt c.host c.tag c.job s
  | .resume => runResume c.host c.tag c.job s
  | .kill => runKill c.host c.tag c.job s
  | .status => runStatus c.host c.tag c.job s
  | .dread a n => runDread c.host c.tag a n s
  | .dwrite a ws => runDwrite c.host c.tag a ws s
  | .dhalt u => runDhalt c.host c.tag c.job u s
  | .dresume u => runDresume c.host c.tag c.job u s
  | .tilemap q => runTilemap c.host c.tag q s
  | .offline d => runOffline c.host c.tag c.job d s
  | .online d => runOnline c.host c.tag d s

/-- The lightship takes what another of the pod says (R484), goes on with what it has to finish, or takes the next request that has come as a message: one of another
opcode is refused with FAULT (R446). None where there is nothing it can do. -/
def tryServe (s : State) : Option State :=
  match s.ls.podMsgs with
  | (_, bs) :: rest => some (runPodMsg bs { s with ls := { s.ls with podMsgs := rest } })
  | [] =>
  match s.ls.deferred.find? (deferredReady s) with
  | some (.request c) => some (hostServe c (runRequest c) s)
  | some (.router r) => some (runRouterFailure r s)
  | some (.die d) => some (runDieFault d s)
  | some (.release rs) => some (runRelease rs s)
  | none =>
    match requestReady s, s.ls.requests with
    | true, q :: rest =>
      let s := { s with ls := { s.ls with requests := rest } }
      some (match decodeRequest q with
        | some c => hostServe c (runRequest c) s
        | none => lsReply q.host q.tag 15 0 [] s)
    | _, _ => none

end Sys2Proof.Machine
end

