-- ==== Sys2Proof/Machine/System.lean ====
section
/-! DEFINITION. System, trap, event and token instructions (R238 to R241), the control-register instructions (R236, R237) and
the rows of the registers, the traps that the keeper takes (R217 to R220), checkpoints (R222). -/

namespace Sys2Proof.Machine

def execNop (s : State) : Out := .next (advance s)

/-- A lamp goes on after a park: a claim, take or pass that waited is executed again (R99). -/
def Lamp.reissue (now : Nat) (x : Lamp) : Lamp :=
  if x.st = .blocked ∧ (x.wait = .claim ∨ x.wait = .take ∨ x.wait = .pass) then
    { x with st := x.goOn, wait := .none, nextAt := now }
  else x

/-- Whether the tile in focus has sent its own word up the done tree of its job (R241, R445). -/
def hasDone (s : State) : Bool :=
  match jobById s (jobOf (cur s)) with
  | some j => leafSent j s.focus.val
  | none => false

/-- The return to job level: a keeper that has executed DONE is halted as it was (R455, R458), and the park of a job ends, so that
its lamps go on (R99, R220). -/
def endPark (s : State) : State :=
  if atStation (cur s) then s
  else
    let halt := hasDone s
    let s := modCur s (fun t => { t with keeper := { t.keeper with halted := halt } })
    if (cur s).keeper.preempted then
      modCur s (fun t =>
        let t := mapLamps (fun _ x => { x.reissue (s.cycle + 1) with flush := false }) (unpauseLamps (s.cycle + 1) t)
        { t with lampsStopped := false, keeper := { t.keeper with preempted := false } })
    else s

/-- TRET (R239). -/
def execTret (s : State) : Out :=
  let t := cur s
  .next (if !atStation t && !t.keeper.inTrap then trapIllegal (wordOf .tret) s else endPark (trapReturn s))

/-- Whether every token of a level is set. -/
def allSet (t : Tile) (station : Bool) : Bool := (List.range 64).all (tokSet t station)

/-- Bytes whose values the spec leaves open. -/
def freshBytes : Nat → State → List Byte × State
  | 0, s => ([], s)
  | n + 1, s =>
    let (w, s) := fresh s
    let (bs, s) := freshBytes n s
    (w.extractLsb' 0 8 :: bs, s)

/-- CKPT (R222, R241): without effect in a tile that is not paired. The 12 KiB of the register checkpoint in SRAM hold the
registers in a form that R222 does not give (log entry 9). -/
def execCkpt (s : State) : Out :=
  let t := cur s
  .next (if t.duplex = .solo then advance s
    else if atStation t then trapIllegal (wordOf .ckpt) s
    else if !((t.act.lamps.toList.all (fun x => x.st == .stopped)) && allSet t false) then trapIllegal 0 s
    else
      let (bs, s) := freshBytes 0x3000 (advance s)
      modCur s (fun t => { t with ckpt := some ⟨t.keeper, t.ctrl, t.act, t.free, [], []⟩,
                                  sram := Mem.writeN t.sram 0x1D0000 bs }))

/-- DHALT (R241, R458): the PC holds the next instruction. -/
def execDhalt (s : State) : Out := .next (debugHalt s.focus.val (advance s))

/-- WAITEV (R240). -/
def tryWaitev (d a : BitVec 5) (s : State) : Option State :=
  let m := kreg s a
  let v := (cur s).ctrl.events &&& m
  if v != 0 || m == 0 then some (retireReg s d v 1) else none

def execWaitev (d a : BitVec 5) (s : State) : Out := .next (orWait (.waitev d a) s (tryWaitev d a s))

/-- TWAIT (R240). -/
def tryTwait (a : BitVec 5) (s : State) : Option State :=
  let m := kreg s a
  if tokLo (cur s) (atStation (cur s)) &&& m == m then some (advance s) else none

def execTwait (a : BitVec 5) (s : State) : Out := .next (orWait (.twait a) s (tryTwait a s))

/-- TWAITA (R240). -/
def tryTwaita (d a : BitVec 5) (s : State) : Option State :=
  let m := kreg s a
  let v := tokLo (cur s) (atStation (cur s)) &&& m
  if v != 0 || m == 0 then some (retireReg s d v 1) else none

def execTwaita (d a : BitVec 5) (s : State) : Out := .next (orWait (.twaita d a) s (tryTwaita d a s))

/-- DONE (R241, R445): the keeper halts at it. -/
def tryDone (a : BitVec 5) (s : State) : Option State :=
  let t := cur s
  if atStation t then some (trapIllegal (wordOf (.done a)) s)
  else if allSet t false && t.act.lamps.toList.all Lamp.ended then
    some (modCur (sendLeaf (jobOf t) s.focus.val (kreg s a) s) (fun t =>
      { t with keeper := { t.keeper with halted := true, waiting := none } }))
  else none

def execDone (a : BitVec 5) (s : State) : Out := .next (orWait (.done a) s (tryDone a s))

/-! ## Control registers (R201, R236, R237) -/

/-- A register number as TRAPVAL holds it (R237). -/
def crVal (n : BitVec 12) : W64 := n.zeroExtend 64

/-- The checks 1 to 3 of R237: the trap that an access takes, none where it may go on. -/
def crTrap (t : Tile) (n : Nat) (write : Bool) : Option Nat :=
  if !crAssigned n then some 1
  else if !atStation t && (crStation n || (write && crReadOnly n)
      || (write && crProtected n && !bit t.ctrl.caps 2)) then some 4
  else if atStation t && write && crFixed n then some 1
  else none

/-- A write of a control register by the keeper (R237). -/
def crWrite (n : BitVec 12) (bits : Bool) (f : W64 → W64) (s : State) : State :=
  match crTrap (cur s) n.toNat true with
  | some c => syncTrap c (crVal n) s
  | none =>
    if bits && (n == 0x00C || n == 0x00E) then trapIllegal (crVal n) s
    else
      match crStore s.focus.val n.toNat (f (crRead s.cycle (cur s) n.toNat)) s with
      | some s' => advance s'
      | none => trapIllegal (crVal n) s

def execCrr (d : BitVec 5) (n : BitVec 12) (s : State) : Out :=
  .next (match crTrap (cur s) n.toNat false with
    | some c => syncTrap c (crVal n) s
    | none => retireReg s d (crRead s.cycle (cur s) n.toNat) 1)

def execCrw (r : BitVec 5) (n : BitVec 12) (s : State) : Out := .next (crWrite n false (fun _ => kreg s r) s)
def execCrs (r : BitVec 5) (n : BitVec 12) (s : State) : Out := .next (crWrite n true (fun old => old ||| kreg s r) s)
def execCrc (r : BitVec 5) (n : BitVec 12) (s : State) : Out := .next (crWrite n true (fun old => old &&& ~~~ kreg s r) s)

/-- A write of a register by itself: stored under its rule, or refused with ILLEGAL (R201). -/
def regWrite (n : Nat) (v : W64) (s : State) : State :=
  match crStore s.focus.val n v s with
  | some s' => s'
  | none => trapIllegal (BitVec.ofNat 64 n) s

def execAlarm (v : W64) (s : State) : Out := .next (regWrite 0x005 v s)
def execEvents (v : W64) (s : State) : Out := .next (regWrite 0x00C v s)
def execEccstat (v : W64) (s : State) : Out := .next (regWrite 0x00E v s)
def execSramlim (v : W64) (s : State) : Out := .next (regWrite 0x010 v s)
def execUxpool (v : W64) (s : State) : Out := .next (regWrite 0x013 v s)
def execCheckmode (v : W64) (s : State) : Out := .next (regWrite 0x014 v s)
def execEagermax (v : W64) (s : State) : Out := .next (regWrite 0x020 v s)
def execMatchlog (v : W64) (s : State) : Out := .next (regWrite 0x021 v s)
def execDoma (d : Fin 4) (v : W64) (s : State) : Out := .next (regWrite (0x28 + d.val) v s)
def execEngswap (v : W64) (s : State) : Out := .next (regWrite 0x100 v s)
def execLscmd (v : W64) (s : State) : Out := .next (regWrite 0x101 v s)
def execControlRegisterWrite (n : BitVec 12) (v : W64) (s : State) : Out := .next (regWrite n.toNat v s)

/-! ## Traps at an instruction boundary -/

def execIllegal (w : W32) (s : State) : Out := .next (trapIllegal (w.zeroExtend 64) s)

def execFetchSramBound (s : State) : Out := .next (trapBound (cur s).keeper.pc s)

/-- The asynchronous trap that is pending (R217), the first in the order of R218: cause, value, agent, token. PREEMPT waits while it
is deferred (R455), and while in_trap is set only DEBUG and PREEMPT make one (R217). 13 stands for the trap of ckpt_lost, for which
R218 names no cause (log entry 27). -/
def pendingTrap (t : Tile) : Option (Nat × W64 × Nat × Nat) :=
  let m := t.ctrl.events &&& t.ctrl.evmask
  let on (i : Nat) : Bool := bit m i && !t.keeper.inTrap
  if bit m 39 then some (11, 0, 31, 0)
  else if bit m 38 && (t.keeper.preemptBy.isNone || t.keeper.halted) then some (10, 0, 31, 0)
  else if t.keeper.halted then none
  else if on 33 then some (6, if bit t.eng.lensFault 63 then t.eng.lensFault else t.eng.copyFault, 31, 0)
  else if on 34 then some (7, t.eng.copyFault, 31, 0)
  else if on 35 then some (8, 0, 31, 0)
  else match (List.range 16).find? on with
    | some l => some (5, 0, l, 0)
    | none =>
      if on 36 then some (9, 0, t.keeper.checkInfo.toNat / 64, t.keeper.checkInfo.toNat % 64)
      else if on 37 then some (12, 0, 31, 0)
      else if on 40 then some (13, 0, 31, 0)
      else none

/-- The pending trap that the keeper takes at an instruction boundary (R218): at station level it stays pending until the return from
it (log entry 26). -/
def dueTrap (t : Tile) : Option (Nat × W64 × Nat × Nat) := if t.keeper.station then none else pendingTrap t

/-- A trap that abandons a TURN, TURN.W or WINCOMMIT leaves its resume record (R419). -/
def abandonWait (t : Tile) : Tile :=
  let k := t.keeper
  let rec_ (ka : W64) : Tile := { t with keeper := { k with resume := some ⟨k.pc, ka, k.ticket⟩ } }
  match k.waiting with
  | some (.turn _ a) => rec_ (k.get a)
  | some (.turnW _ a) => rec_ (k.get a)
  | some (.wincommit _) => rec_ 0
  | _ => t

/-- A lamp as PREEMPT stops it (R99, R192, R220): it keeps its state and wait code while its request is cancelled, but for a
drain-dispatch claim, which leaves it STOPPED (R96); a wait of a `fence` ends, and its accesses complete. -/
def Lamp.park (now gap : Nat) (x : Lamp) : Lamp :=
  let x := if x.st = .blocked ∧ x.wait = .dispatch then { x with st := .stopped, wait := .none } else x
  if x.paused then x
  else
    let x := if x.fence then { x with nextAt := Nat.min x.nextAt (now + gap), flush := true } else x
    x.pause (now + 1)

/-- What PREEMPT does at trap entry (R99, R220): lamps stop at their bundle boundaries and their requests are cancelled; a
block that LSTART reads arrives. -/
def preemptEntry (r : Nat) (s : State) : State :=
  modLens (modTile s r (fun t =>
    let t := t.lstarts.foldl (fun t x => mapLamps (fun l y =>
      if x.mask.getLsbD l && y.issuing then { y with code := readBlock t.sram (y.block.toNat * 256) } else y) t) t
    let t := (List.range 16).foldl (fun t l => modLamp l (Lamp.park s.cycle (lampGap t)) (cancelRequests l t)) t
    { t with lstarts := [], freezes := [], lampsStopped := true })) (clusterOf r) (fun c =>
      { c with accepted := c.accepted.map (fun a => if a.tile = posOf r then { a with claim := none } else a) })

/-- The cause code of a trap for which R218 names none: some code that it uses (log entry 27). -/
def anyCause (s : State) : State :=
  let (w, s) := fresh s
  let put (old : W64) : W64 := putFld old 0 4 (w.toNat % 12 + 1)
  modCur s (fun t =>
    if atStation t then { t with ctrl := { t.ctrl with strapcause := put t.ctrl.strapcause } }
    else { t with ctrl := { t.ctrl with trapcause := put t.ctrl.trapcause } })

/-- TAKE_TRAP (R219). -/
def execTakeTrap (s : State) : Out :=
  let t := cur s
  .next (match dueTrap t with
    | none => s
    | some (cause, val, agent, tok) =>
      let s := enterTrap cause (fun t =>
        let t := takeTrap true cause val agent tok t.keeper.pc s.cycle (abandonWait t)
        if cause = 10 then { t with keeper := { t.keeper with preempted := true, halted := false, preemptBy := none } }
        else { t with keeper := { t.keeper with halted := false } }) s
      if cause = 10 then preemptEntry s.focus.val s else if cause = 13 then anyCause s else s)

/-- Set the timer bit where the timer is enabled and its value reached (R202). -/
def setTimer (now : Nat) (t : Tile) : Tile :=
  if bit t.ctrl.alarm 63 && decide (fld t.ctrl.alarm 0 63 ≤ now % 2 ^ 63) then setEvent 37 t else t

def execTimer (r : TileId) (s : State) : Out := .next (modTile s r.val (setTimer s.cycle))

/-- PREEMPT is no longer deferred once its 10 ms are over (R455). -/
def endDeferral (now : Nat) (t : Tile) : Tile :=
  match t.keeper.preemptBy with
  | some n => if n ≤ now then { t with keeper := { t.keeper with preemptBy := none } } else t
  | none => t

/-- PREEMPT_PHASE_TIMEOUT (R455). -/
def execPreemptPhaseTimeout (r : TileId) (s : State) : Out := .next (modTile s r.val (endDeferral s.cycle))

end Sys2Proof.Machine
end

