-- ==== Sys2Proof/Machine/Waits.lean ====
section
/-! DEFINITION. Waiting keeper instructions (R240, R243): one that stands at its boundary is tried again in each clk, and
completes in the first clk in which its condition holds. -/

namespace Sys2Proof.Machine

/-- Try a waiting instruction again (R240, R243): the engine commands whose queue or slot was full (R211, R253), the joins
and waits (R210, R240, R300, R302, R312, R313), and the instructions that wait for a beacon, a link or the lightship. -/
def resumeWaiting (i : Instr) (s : State) : State :=
  if (copyParts i).isSome then orWait i s (tryCopyInstr i s)
  else if (lensParts i).isSome then orWait i s (tryLensInstr i s)
  else if (msgParts i).isSome then orWait i s (tryMsgInstr i s)
  else match i with
    | .flash a b => orWait i s (tryFlash a b s)
    | .ljoin d a => orWait i s (tryLjoin d a s)
    | .waitev d a => orWait i s (tryWaitev d a s)
    | .twait a => orWait i s (tryTwait a s)
    | .twaita d a => orWait i s (tryTwaita d a s)
    | .done a => orWait i s (tryDone a s)
    | .accAlloc d a => orWait i s (tryAccAlloc d a s)
    | .mwait d a => orWait i s (tryMwait d a s)
    | .mquiesce a => orWait i s (tryMquiesce a s)
    | .winset t k m n => orWait i s (tryWinset t k m n s)
    | .wincommit d => runWincommit d s
    | .winq d a => winqCur d a s
    | .winqSt d a => winqStaged d a s
    | .winqGen d => winqGeneration d s
    | .winqAllot d a => winqAllotted d a s
    | .turn d a => runTurn i false d (kreg s a) s
    | .turnW d a => runTurn i true d (kreg s a) s
    | .scan t k m n x => runScan t k m n x s
    | _ => runBeacon i s

/-- KEEPER_WAIT_COMPLETE (R240). -/
def execKeeperWaitComplete (s : State) : Out :=
  .next (match (cur s).keeper.waiting with
    | some i => resumeWaiting i s
    | none => s)

end Sys2Proof.Machine
end

