-- ==== Sys2Proof/Machine/Dispatch.lean ====
section
/-! DEFINITION. One arm for each constructor of Instr, each a direct call of its meaning. -/

namespace Sys2Proof.Machine

def exec (i : Instr) (s : State) : Host.Outcome State Fault Refusal :=
  match i with
  | .add d a b => Sys2Proof.Machine.execAdd d a b s
  | .sub d a b => Sys2Proof.Machine.execSub d a b s
  | .and d a b => Sys2Proof.Machine.execAnd d a b s
  | .or d a b => Sys2Proof.Machine.execOr d a b s
  | .xor d a b => Sys2Proof.Machine.execXor d a b s
  | .andn d a b => Sys2Proof.Machine.execAndn d a b s
  | .shl d a b => Sys2Proof.Machine.execShl d a b s
  | .shr d a b => Sys2Proof.Machine.execShr d a b s
  | .sar d a b => Sys2Proof.Machine.execSar d a b s
  | .slt d a b => Sys2Proof.Machine.execSlt d a b s
  | .sltu d a b => Sys2Proof.Machine.execSltu d a b s
  | .min d a b => Sys2Proof.Machine.execMin d a b s
  | .max d a b => Sys2Proof.Machine.execMax d a b s
  | .minu d a b => Sys2Proof.Machine.execMinu d a b s
  | .maxu d a b => Sys2Proof.Machine.execMaxu d a b s
  | .mul d a b => Sys2Proof.Machine.execMul d a b s
  | .mulh d a b => Sys2Proof.Machine.execMulh d a b s
  | .mulhu d a b => Sys2Proof.Machine.execMulhu d a b s
  | .div d a b => Sys2Proof.Machine.execDiv d a b s
  | .divu d a b => Sys2Proof.Machine.execDivu d a b s
  | .rem d a b => Sys2Proof.Machine.execRem d a b s
  | .remu d a b => Sys2Proof.Machine.execRemu d a b s
  | .popc d a => Sys2Proof.Machine.execPopc d a s
  | .clz d a => Sys2Proof.Machine.execClz d a s
  | .ctz d a => Sys2Proof.Machine.execCtz d a s
  | .addi d a imm => Sys2Proof.Machine.execAddi d a imm s
  | .andi d a imm => Sys2Proof.Machine.execAndi d a imm s
  | .ori d a imm => Sys2Proof.Machine.execOri d a imm s
  | .xori d a imm => Sys2Proof.Machine.execXori d a imm s
  | .slti d a imm => Sys2Proof.Machine.execSlti d a imm s
  | .sltiu d a imm => Sys2Proof.Machine.execSltiu d a imm s
  | .shli d a c => Sys2Proof.Machine.execShli d a c s
  | .shri d a c => Sys2Proof.Machine.execShri d a c s
  | .sari d a c => Sys2Proof.Machine.execSari d a c s
  | .addhi d a imm => Sys2Proof.Machine.execAddhi d a imm s
  | .lb d a imm => Sys2Proof.Machine.execLb d a imm s
  | .lbu d a imm => Sys2Proof.Machine.execLbu d a imm s
  | .lh d a imm => Sys2Proof.Machine.execLh d a imm s
  | .lhu d a imm => Sys2Proof.Machine.execLhu d a imm s
  | .lw d a imm => Sys2Proof.Machine.execLw d a imm s
  | .lwu d a imm => Sys2Proof.Machine.execLwu d a imm s
  | .ld d a imm => Sys2Proof.Machine.execLd d a imm s
  | .ldSk d a imm => Sys2Proof.Machine.execLdSk d a imm s
  | .sb v a imm => Sys2Proof.Machine.execSb v a imm s
  | .sh v a imm => Sys2Proof.Machine.execSh v a imm s
  | .sw v a imm => Sys2Proof.Machine.execSw v a imm s
  | .sd v a imm => Sys2Proof.Machine.execSd v a imm s
  | .sdSk v a imm => Sys2Proof.Machine.execSdSk v a imm s
  | .beq a b imm => Sys2Proof.Machine.execBeq a b imm s
  | .bne a b imm => Sys2Proof.Machine.execBne a b imm s
  | .blt a b imm => Sys2Proof.Machine.execBlt a b imm s
  | .bge a b imm => Sys2Proof.Machine.execBge a b imm s
  | .bltu a b imm => Sys2Proof.Machine.execBltu a b imm s
  | .bgeu a b imm => Sys2Proof.Machine.execBgeu a b imm s
  | .j imm => Sys2Proof.Machine.execJ imm s
  | .jal imm => Sys2Proof.Machine.execJal imm s
  | .jalr d a imm => Sys2Proof.Machine.execJalr d a imm s
  | .crr d r => Sys2Proof.Machine.execCrr d r s
  | .crw v r => Sys2Proof.Machine.execCrw v r s
  | .crs v r => Sys2Proof.Machine.execCrs v r s
  | .crc v r => Sys2Proof.Machine.execCrc v r s
  | .nop => Sys2Proof.Machine.execNop s
  | .tret => Sys2Proof.Machine.execTret s
  | .ckpt => Sys2Proof.Machine.execCkpt s
  | .dhalt => Sys2Proof.Machine.execDhalt s
  | .waitev d a => Sys2Proof.Machine.execWaitev d a s
  | .twait a => Sys2Proof.Machine.execTwait a s
  | .twaita d a => Sys2Proof.Machine.execTwaita d a s
  | .done a => Sys2Proof.Machine.execDone a s
  | .ann d a b x => Sys2Proof.Machine.execAnn d a b x s
  | .annL d b x => Sys2Proof.Machine.execAnnL d b x s
  | .voteAnd d a b x => Sys2Proof.Machine.execVoteAnd d a b x s
  | .voteOr d a b x => Sys2Proof.Machine.execVoteOr d a b x s
  | .voteMax d a b x => Sys2Proof.Machine.execVoteMax d a b x s
  | .voteMin d a b x => Sys2Proof.Machine.execVoteMin d a b x s
  | .voteMaxs d a b x => Sys2Proof.Machine.execVoteMaxs d a b x s
  | .voteMins d a b x => Sys2Proof.Machine.execVoteMins d a b x s
  | .scan t k m n x => Sys2Proof.Machine.execScan t k m n x s
  | .bar d a x => Sys2Proof.Machine.execBar d a x s
  | .barx d a x => Sys2Proof.Machine.execBarx d a x s
  | .cpMove t k m n y x => Sys2Proof.Machine.execCpMove t k m n y x s
  | .cpGather t k m n => Sys2Proof.Machine.execCpGather t k m n s
  | .cpScatter t k m n => Sys2Proof.Machine.execCpScatter t k m n s
  | .cpPlane t k m n => Sys2Proof.Machine.execCpPlane t k m n s
  | .cpUnplane t k m n => Sys2Proof.Machine.execCpUnplane t k m n s
  | .cpPx8Enc t k m n => Sys2Proof.Machine.execCpPx8Enc t k m n s
  | .cpPx8Dec t k m n => Sys2Proof.Machine.execCpPx8Dec t k m n s
  | .cpPx8Bf16 t k m n => Sys2Proof.Machine.execCpPx8Bf16 t k m n s
  | .cpPx8Encbf t k m n => Sys2Proof.Machine.execCpPx8Encbf t k m n s
  | .cpCvt t k m n => Sys2Proof.Machine.execCpCvt t k m n s
  | .cpAcc t k m n c => Sys2Proof.Machine.execCpAcc t k m n c s
  | .cpTopk t k m n c => Sys2Proof.Machine.execCpTopk t k m n c s
  | .cpFill t k m n => Sys2Proof.Machine.execCpFill t k m n s
  | .turn d a => Sys2Proof.Machine.execTurn d a s
  | .turnW d a => Sys2Proof.Machine.execTurnW d a s
  | .turnq d a => Sys2Proof.Machine.execTurnq d a s
  | .turnqTx d a => Sys2Proof.Machine.execTurnqTx d a s
  | .turnqRx d a => Sys2Proof.Machine.execTurnqRx d a s
  | .winset t k m n => Sys2Proof.Machine.execWinset t k m n s
  | .wincommit d => Sys2Proof.Machine.execWincommit d s
  | .winq d a => Sys2Proof.Machine.execWinq d a s
  | .winqSt d a => Sys2Proof.Machine.execWinqSt d a s
  | .winqGen d => Sys2Proof.Machine.execWinqGen d s
  | .winqAllot d a => Sys2Proof.Machine.execWinqAllot d a s
  | .flash a b => Sys2Proof.Machine.execFlash a b s
  | .lstart a b => Sys2Proof.Machine.execLstart a b s
  | .lstop a => Sys2Proof.Machine.execLstop a s
  | .ljoin d a => Sys2Proof.Machine.execLjoin d a s
  | .lgroup a b => Sys2Proof.Machine.execLgroup a b s
  | .lstate d a => Sys2Proof.Machine.execLstate d a s
  | .lwrite a b => Sys2Proof.Machine.execLwrite a b s
  | .lswap => Sys2Proof.Machine.execLswap s
  | .lspillOut t k m n => Sys2Proof.Machine.execLspillOut t k m n s
  | .lspillIn t k m n => Sys2Proof.Machine.execLspillIn t k m n s
  | .send t k m n => Sys2Proof.Machine.execSend t k m n s
  | .ssend t k m n => Sys2Proof.Machine.execSsend t k m n s
  | .sendTree t k m n => Sys2Proof.Machine.execSendTree t k m n s
  | .recv t k m n => Sys2Proof.Machine.execRecv t k m n s
  | .recvAdd t k m n => Sys2Proof.Machine.execRecvAdd t k m n s
  | .recvPx8 t k m n => Sys2Proof.Machine.execRecvPx8 t k m n s
  | .probe d a b => Sys2Proof.Machine.execProbe d a b s
  | .probeLen d a b => Sys2Proof.Machine.execProbeLen d a b s
  | .cancel d a => Sys2Proof.Machine.execCancel d a s
  | .mwait d a => Sys2Proof.Machine.execMwait d a s
  | .mtest d a b => Sys2Proof.Machine.execMtest d a b s
  | .mstat d a => Sys2Proof.Machine.execMstat d a s
  | .mquiesce a => Sys2Proof.Machine.execMquiesce a s
  | .lmm t k m n => Sys2Proof.Machine.execLmm t k m n s
  | .lmms t k m n => Sys2Proof.Machine.execLmms t k m n s
  | .lrank t k m n => Sys2Proof.Machine.execLrank t k m n s
  | .accLoad t k m n => Sys2Proof.Machine.execAccLoad t k m n s
  | .accClr t k m n => Sys2Proof.Machine.execAccClr t k m n s
  | .accMerge t k m n => Sys2Proof.Machine.execAccMerge t k m n s
  | .drain t k m n => Sys2Proof.Machine.execDrain t k m n s
  | .accFree t k m n => Sys2Proof.Machine.execAccFree t k m n s
  | .accOwn t k m n => Sys2Proof.Machine.execAccOwn t k m n s
  | .accAlloc d a => Sys2Proof.Machine.execAccAlloc d a s
  | .lqueryStatus d a => Sys2Proof.Machine.execLqueryStatus d a s
  | .lqueryFault d a => Sys2Proof.Machine.execLqueryFault d a s
  | .lqueryBank d a => Sys2Proof.Machine.execLqueryBank d a s
  | .iaAdd u w => Sys2Proof.Machine.execIaAdd u w s
  | .iaSub u w => Sys2Proof.Machine.execIaSub u w s
  | .addsS u w => Sys2Proof.Machine.execAddsS u w s
  | .addsZ u w => Sys2Proof.Machine.execAddsZ u w s
  | .subsS u w => Sys2Proof.Machine.execSubsS u w s
  | .subsZ u w => Sys2Proof.Machine.execSubsZ u w s
  | .minS u w => Sys2Proof.Machine.execMinS u w s
  | .minZ u w => Sys2Proof.Machine.execMinZ u w s
  | .maxS u w => Sys2Proof.Machine.execMaxS u w s
  | .maxZ u w => Sys2Proof.Machine.execMaxZ u w s
  | .iaShl u w => Sys2Proof.Machine.execIaShl u w s
  | .shrZ u w => Sys2Proof.Machine.execShrZ u w s
  | .shrS u w => Sys2Proof.Machine.execShrS u w s
  | .andB128 u => Sys2Proof.Machine.execAndB128 u s
  | .orB128 u => Sys2Proof.Machine.execOrB128 u s
  | .xorB128 u => Sys2Proof.Machine.execXorB128 u s
  | .andnB128 u => Sys2Proof.Machine.execAndnB128 u s
  | .notB128 u => Sys2Proof.Machine.execNotB128 u s
  | .movB128 u => Sys2Proof.Machine.execMovB128 u s
  | .addS64 u => Sys2Proof.Machine.execAddS64 u s
  | .subS64 u => Sys2Proof.Machine.execSubS64 u s
  | .ibMul w => Sys2Proof.Machine.execIbMul w s
  | .mulwS w => Sys2Proof.Machine.execMulwS w s
  | .mulwZ w => Sys2Proof.Machine.execMulwZ w s
  | .popcB32 => Sys2Proof.Machine.execPopcB32 s
  | .permB8 => Sys2Proof.Machine.execPermB8 s
  | .permB32 => Sys2Proof.Machine.execPermB32 s
  | .bcastB32 => Sys2Proof.Machine.execBcastB32 s
  | .zipl w32 => Sys2Proof.Machine.execZipl w32 s
  | .ziph w32 => Sys2Proof.Machine.execZiph w32 s
  | .fma ty => Sys2Proof.Machine.execFma ty s
  | .fms ty => Sys2Proof.Machine.execFms ty s
  | .fnma ty => Sys2Proof.Machine.execFnma ty s
  | .fnms ty => Sys2Proof.Machine.execFnms ty s
  | .fmAdd ty => Sys2Proof.Machine.execFmAdd ty s
  | .fmSub ty => Sys2Proof.Machine.execFmSub ty s
  | .fmMul ty => Sys2Proof.Machine.execFmMul ty s
  | .fmMin ty => Sys2Proof.Machine.execFmMin ty s
  | .fmMax ty => Sys2Proof.Machine.execFmMax ty s
  | .fmAbs ty => Sys2Proof.Machine.execFmAbs ty s
  | .fmNeg ty => Sys2Proof.Machine.execFmNeg ty s
  | .rdflag => Sys2Proof.Machine.execRdflag s
  | .wrflag => Sys2Proof.Machine.execWrflag s
  | .rdmode => Sys2Proof.Machine.execRdmode s
  | .wrmode => Sys2Proof.Machine.execWrmode s
  | .rcp => Sys2Proof.Machine.execRcp s
  | .sqrt => Sys2Proof.Machine.execSqrt s
  | .rsqrt => Sys2Proof.Machine.execRsqrt s
  | .exp2 => Sys2Proof.Machine.execExp2 s
  | .log2 => Sys2Proof.Machine.execLog2 s
  | .cvtBf16 => Sys2Proof.Machine.execCvtBf16 s
  | .cvtF16 => Sys2Proof.Machine.execCvtF16 s
  | .cvtE4m3 => Sys2Proof.Machine.execCvtE4m3 s
  | .cvtE5m2 => Sys2Proof.Machine.execCvtE5m2 s
  | .cvtE2m1 => Sys2Proof.Machine.execCvtE2m1 s
  | .cvtE4m3Bf16 => Sys2Proof.Machine.execCvtE4m3Bf16 s
  | .cvtE5m2Bf16 => Sys2Proof.Machine.execCvtE5m2Bf16 s
  | .cvtF16Bf16 => Sys2Proof.Machine.execCvtF16Bf16 s
  | .cvtS32 => Sys2Proof.Machine.execCvtS32 s
  | .cvtF32S32 => Sys2Proof.Machine.execCvtF32S32 s
  | .cvtS8S32 => Sys2Proof.Machine.execCvtS8S32 s
  | .cvtS16S32 => Sys2Proof.Machine.execCvtS16S32 s
  | .cvtS4S8 => Sys2Proof.Machine.execCvtS4S8 s
  | .cvtZ8S32 => Sys2Proof.Machine.execCvtZ8S32 s
  | .cvtSr k => Sys2Proof.Machine.execCvtSr k s
  | .cvtF32Bf16 => Sys2Proof.Machine.execCvtF32Bf16 s
  | .cvtF32F16 => Sys2Proof.Machine.execCvtF32F16 s
  | .cvtF32E4m3 => Sys2Proof.Machine.execCvtF32E4m3 s
  | .cvtF32E5m2 => Sys2Proof.Machine.execCvtF32E5m2 s
  | .cvtF32E2m1 => Sys2Proof.Machine.execCvtF32E2m1 s
  | .cvtBf16E4m3 => Sys2Proof.Machine.execCvtBf16E4m3 s
  | .cvtBf16E5m2 => Sys2Proof.Machine.execCvtBf16E5m2 s
  | .cvtBf16E2m1 => Sys2Proof.Machine.execCvtBf16E2m1 s
  | .cvtS32S8 => Sys2Proof.Machine.execCvtS32S8 s
  | .cvtS32Z8 => Sys2Proof.Machine.execCvtS32Z8 s
  | .cvtS32S16 => Sys2Proof.Machine.execCvtS32S16 s
  | .cvtS8S4 => Sys2Proof.Machine.execCvtS8S4 s
  | .cvtF32Mxi8 => Sys2Proof.Machine.execCvtF32Mxi8 s
  | .px8E4m3 => Sys2Proof.Machine.execPx8E4m3 s
  | .px8Bf16 => Sys2Proof.Machine.execPx8Bf16 s
  | .planePack => Sys2Proof.Machine.execPlanePack s
  | .planeUnpack => Sys2Proof.Machine.execPlaneUnpack s
  | .rdrng => Sys2Proof.Machine.execRdrng s
  | .lsLd => Sys2Proof.Machine.execLsLd s
  | .lsLdSk => Sys2Proof.Machine.execLsLdSk s
  | .lsSt => Sys2Proof.Machine.execLsSt s
  | .lsStSk => Sys2Proof.Machine.execLsStSk s
  | .ldB32 => Sys2Proof.Machine.execLdB32 s
  | .stB32 => Sys2Proof.Machine.execStB32 s
  | .ldgB32 => Sys2Proof.Machine.execLdgB32 s
  | .stgB32 => Sys2Proof.Machine.execStgB32 s
  | .ldb => Sys2Proof.Machine.execLdb s
  | .stb => Sys2Proof.Machine.execStb s
  | .ldacc => Sys2Proof.Machine.execLdacc s
  | .ldaccCol => Sys2Proof.Machine.execLdaccCol s
  | .stacc => Sys2Proof.Machine.execStacc s
  | .atomAddF32 => Sys2Proof.Machine.execAtomAddF32 s
  | .atomAddBf16 => Sys2Proof.Machine.execAtomAddBf16 s
  | .atomAddS32 => Sys2Proof.Machine.execAtomAddS32 s
  | .cmpEq ty => Sys2Proof.Machine.execCmpEq ty s
  | .cmpNe ty => Sys2Proof.Machine.execCmpNe ty s
  | .cmpLt ty => Sys2Proof.Machine.execCmpLt ty s
  | .cmpLe ty => Sys2Proof.Machine.execCmpLe ty s
  | .anyB32 => Sys2Proof.Machine.execAnyB32 s
  | .allB32 => Sys2Proof.Machine.execAllB32 s
  | .selB128 => Sys2Proof.Machine.execSelB128 s
  | .pand => Sys2Proof.Machine.execPand s
  | .por => Sys2Proof.Machine.execPor s
  | .pxor => Sys2Proof.Machine.execPxor s
  | .pnot => Sys2Proof.Machine.execPnot s
  | .maskB32 => Sys2Proof.Machine.execMaskB32 s
  | .maskB16 => Sys2Proof.Machine.execMaskB16 s
  | .maskB8 => Sys2Proof.Machine.execMaskB8 s
  | .fetch => Sys2Proof.Machine.execFetch s
  | .next => Sys2Proof.Machine.execNext s
  | .jump => Sys2Proof.Machine.execJump s
  | .stop => Sys2Proof.Machine.execStop s
  | .rep => Sys2Proof.Machine.execRep s
  | .fence => Sys2Proof.Machine.execFence s
  | .give => Sys2Proof.Machine.execGive s
  | .pass => Sys2Proof.Machine.execPass s
  | .claim => Sys2Proof.Machine.execClaim s
  | .take => Sys2Proof.Machine.execTake s
  | .linkNext => Sys2Proof.Machine.execLinkNext s
  | .linkPrev => Sys2Proof.Machine.execLinkPrev s
  | .linkIdx => Sys2Proof.Machine.execLinkIdx s
  | .signal => Sys2Proof.Machine.execSignal s
  | .linkreg => Sys2Proof.Machine.execLinkreg s
  | .bypass tdi => Sys2Proof.Machine.execBypass tdi s
  | .samplePreload tdi => Sys2Proof.Machine.execSamplePreload tdi s
  | .extest tdi => Sys2Proof.Machine.execExtest tdi s
  | .idcode tdi => Sys2Proof.Machine.execIdcode tdi s
  | .lampBundle r l => Sys2Proof.Machine.execLampBundle r l s
  | .freezeRelease r => Sys2Proof.Machine.execFreezeRelease r s
  | .resultDelivery r l => Sys2Proof.Machine.execResultDelivery r l s
  | .flashDelivery r => Sys2Proof.Machine.execFlashDelivery r s
  | .lstartFirstBundle r => Sys2Proof.Machine.execLstartFirstBundle r s
  | .requestGrant r => Sys2Proof.Machine.execRequestGrant r s
  | .linkStallRelease r l => Sys2Proof.Machine.execLinkStallRelease r l s
  | .drainDispatch c => Sys2Proof.Machine.execDrainDispatch c s
  | .keeperWaitComplete => Sys2Proof.Machine.execKeeperWaitComplete s
  | .takeTrap => Sys2Proof.Machine.execTakeTrap s
  | .timer r => Sys2Proof.Machine.execTimer r s
  | .preemptPhaseTimeout r => Sys2Proof.Machine.execPreemptPhaseTimeout r s
  | .copyCommandStart r => Sys2Proof.Machine.execCopyCommandStart r s
  | .copyComplete r => Sys2Proof.Machine.execCopyComplete r s
  | .duplexRollback r => Sys2Proof.Machine.execDuplexRollback r s
  | .sendStart r slot => Sys2Proof.Machine.execSendStart r slot s
  | .receivePost r slot => Sys2Proof.Machine.execReceivePost r slot s
  | .eager e n => Sys2Proof.Machine.execEager e n s
  | .rts e n => Sys2Proof.Machine.execRts e n s
  | .cts e n => Sys2Proof.Machine.execCts e n s
  | .data e n => Sys2Proof.Machine.execData e n s
  | .ack e n => Sys2Proof.Machine.execAck e n s
  | .stub e n => Sys2Proof.Machine.execStub e n s
  | .nack e n => Sys2Proof.Machine.execNack e n s
  | .nackRetry e n => Sys2Proof.Machine.execNackRetry e n s
  | .abort e n => Sys2Proof.Machine.execAbort e n s
  | .refuse e n => Sys2Proof.Machine.execRefuse e n s
  | .orderedComplete e n => Sys2Proof.Machine.execOrderedComplete e n s
  | .streamRetire e peer group => Sys2Proof.Machine.execStreamRetire e peer group s
  | .replayPair r => Sys2Proof.Machine.execReplayPair r s
  | .peerLeave e peer => Sys2Proof.Machine.execPeerLeave e peer s
  | .arbiterGrant c => Sys2Proof.Machine.execArbiterGrant c s
  | .loadComplete c slot => Sys2Proof.Machine.execLoadComplete c slot s
  | .computeStart c slot => Sys2Proof.Machine.execComputeStart c slot s
  | .blockStep c => Sys2Proof.Machine.execBlockStep c s
  | .bankCommandAccept c pos => Sys2Proof.Machine.execBankCommandAccept c pos s
  | .rowOperation c => Sys2Proof.Machine.execRowOperation c s
  | .cellForward n p => Sys2Proof.Machine.execCellForward n p s
  | .creditReturn n p => Sys2Proof.Machine.execCreditReturn n p s
  | .promotion n p vc => Sys2Proof.Machine.execPromotion n p vc s
  | .escape n p vc => Sys2Proof.Machine.execEscape n p vc s
  | .beaconWindow pkg => Sys2Proof.Machine.execBeaconWindow pkg s
  | .barCommit imm => Sys2Proof.Machine.execBarCommit imm s
  | .barRelease imm => Sys2Proof.Machine.execBarRelease imm s
  | .domainBreak imm => Sys2Proof.Machine.execDomainBreak imm s
  | .timeoutComplete imm => Sys2Proof.Machine.execTimeoutComplete imm s
  | .routerFailure r => Sys2Proof.Machine.execRouterFailure r s
  | .flit l toB ok => Sys2Proof.Machine.execFlit l toB ok s
  | .replayRequest l toB => Sys2Proof.Machine.execReplayRequest l toB s
  | .linkAck l toB => Sys2Proof.Machine.execLinkAck l toB s
  | .linkAckTimer l toB => Sys2Proof.Machine.execLinkAckTimer l toB s
  | .linkCredit l toB vc => Sys2Proof.Machine.execLinkCredit l toB vc s
  | .linkTraining l ok => Sys2Proof.Machine.execLinkTraining l ok s
  | .turnService l => Sys2Proof.Machine.execTurnService l s
  | .deadTimeEnd l => Sys2Proof.Machine.execDeadTimeEnd l s
  | .read v => Sys2Proof.Machine.execRead v s
  | .write v => Sys2Proof.Machine.execWrite v s
  | .gather v => Sys2Proof.Machine.execGather v s
  | .reduce v => Sys2Proof.Machine.execReduce v s
  | .convert v => Sys2Proof.Machine.execConvert v s
  | .serverDispatch v => Sys2Proof.Machine.execServerDispatch v s
  | .winsetComplete j => Sys2Proof.Machine.execWinsetComplete j s
  | .windowCommit j => Sys2Proof.Machine.execWindowCommit j s
  | .generationAdvance j => Sys2Proof.Machine.execGenerationAdvance j s
  | .oldTableRelease j => Sys2Proof.Machine.execOldTableRelease j s
  | .load host tag job payload => Sys2Proof.Machine.execLoad host tag job payload s
  | .preempt host tag job => Sys2Proof.Machine.execPreempt host tag job s
  | .resume host tag job => Sys2Proof.Machine.execResume host tag job s
  | .kill host tag job => Sys2Proof.Machine.execKill host tag job s
  | .status host tag job => Sys2Proof.Machine.execStatus host tag job s
  | .dread host tag job addr count => Sys2Proof.Machine.execDread host tag job addr count s
  | .dwrite host tag job addr words => Sys2Proof.Machine.execDwrite host tag job addr words s
  | .dhaltRequest host tag job unit => Sys2Proof.Machine.execDhaltRequest host tag job unit s
  | .dresume host tag job unit => Sys2Proof.Machine.execDresume host tag job unit s
  | .tilemap host tag job req => Sys2Proof.Machine.execTilemap host tag job req s
  | .offline host tag job die => Sys2Proof.Machine.execOffline host tag job die s
  | .online host tag job die => Sys2Proof.Machine.execOnline host tag job die s
  | .imageForward r => Sys2Proof.Machine.execImageForward r s
  | .keeperStart r => Sys2Proof.Machine.execKeeperStart r s
  | .doneWord parent child => Sys2Proof.Machine.execDoneWord parent child s
  | .engswap v => Sys2Proof.Machine.execEngswap v s
  | .lscmd v => Sys2Proof.Machine.execLscmd v s
  | .dieFault d => Sys2Proof.Machine.execDieFault d s
  | .powerSample milliwatt => Sys2Proof.Machine.execPowerSample milliwatt s
  | .dutyStep => Sys2Proof.Machine.execDutyStep s
  | .thermalLimit d celsius => Sys2Proof.Machine.execThermalLimit d celsius s
  | .packageReset => Sys2Proof.Machine.execPackageReset s
  | .frame port f => Sys2Proof.Machine.execFrame port f s
  | .portConfiguration port c => Sys2Proof.Machine.execPortConfiguration port c s
  | .spdmSession port o => Sys2Proof.Machine.execSpdmSession port o s
  | .portRun port => Sys2Proof.Machine.execPortRun port s
  | .portUnlock port => Sys2Proof.Machine.execPortUnlock port s
  | .portLinkLoss port => Sys2Proof.Machine.execPortLinkLoss port s
  | .fabricAdaptive => Sys2Proof.Machine.execFabricAdaptive s
  | .keyUpdate port => Sys2Proof.Machine.execKeyUpdate port s
  | .firmwareImage img => Sys2Proof.Machine.execFirmwareImage img s
  | .alarm v => Sys2Proof.Machine.execAlarm v s
  | .events v => Sys2Proof.Machine.execEvents v s
  | .eccstat v => Sys2Proof.Machine.execEccstat v s
  | .checkmode v => Sys2Proof.Machine.execCheckmode v s
  | .sramlim v => Sys2Proof.Machine.execSramlim v s
  | .uxpool v => Sys2Proof.Machine.execUxpool v s
  | .matchlog v => Sys2Proof.Machine.execMatchlog v s
  | .eagermax v => Sys2Proof.Machine.execEagermax v s
  | .doma d v => Sys2Proof.Machine.execDoma d v s
  | .controlRegisterWrite n v => Sys2Proof.Machine.execControlRegisterWrite n v s
  | .illegal w => Sys2Proof.Machine.execIllegal w s
  | .fetchSramBound => Sys2Proof.Machine.execFetchSramBound s
  | .packetDeliveryResend port => Sys2Proof.Machine.execPacketDeliveryResend port s

end Sys2Proof.Machine
end

