-- ==== Sys2Proof/Machine/Banks.lean ====
section
/-! DEFINITION. The SRAM banks in a clk (R204): the place of the keeper among the accesses, and the turn of the engines at what the
lamps and the keeper leave: message engine, copy engine, lens loads. -/

namespace Sys2Proof.Machine

/-! ## The keeper's access (R204, R233) -/

/-- The SRAM address of a load or store, after the skew mapping (R204, R233). -/
def keeperAddr (s : State) (i : Instr) : Option Nat :=
  let at_ (a : BitVec 5) (o : BitVec 15) : Option Nat := some (loadAddr s a o).toNat
  let sk (a : BitVec 5) (o : BitVec 15) : Option Nat := some (skewMap (cur s) (loadAddr s a o).toNat)
  match i with
  | .lb _ a o => at_ a o
  | .lbu _ a o => at_ a o
  | .lh _ a o => at_ a o
  | .lhu _ a o => at_ a o
  | .lw _ a o => at_ a o
  | .lwu _ a o => at_ a o
  | .ld _ a o => at_ a o
  | .ldSk _ a o => sk a o
  | .sb _ a o => at_ a o
  | .sh _ a o => at_ a o
  | .sw _ a o => at_ a o
  | .sd _ a o => at_ a o
  | .sdSk _ a o => sk a o
  | _ => none

/-- Whether some lamp access has waited for the bank of an address since before `n` (R204). -/
def lampOlder (t : Tile) (a n : Nat) : Bool :=
  t.act.lamps.toList.any (fun x => x.flight.any (fun o => o.pending && decide (o.since < n) && (match o.access with
    | some (i, l) => o.left.any (fun j => sramBank (pieceGranule t i l j) == sramBank a)
    | none => false)))

/-- Whether a keeper's access goes before the lamps at its bank: it has waited 16 clk, and none of theirs for longer (R204). -/
def keeperOld (s : State) (t : Tile) (a : Nat) : Bool :=
  match t.keeper.sramWait with
  | some n => decide (n + 16 ≤ s.cycle) && !lampOlder t a n
  | none => false

/-! ## What the engines present (R204) -/

/-- The accesses of the message engine that wait: those of the match log, of records on their way into the pool, of the slots. -/
def waitingPieces (t : Tile) : List Piece :=
  t.msg.logs ++ t.msg.hdrs.flatMap (fun h => h.todo) ++ (t.eng.slots ++ t.stSlots).flatMap (fun q => q.2.todo)

/-- The accesses of the copy engine and of the lens loads of a tile that wait, each with the clk from which it does. -/
def waitingLoads (s : State) (r : Nat) : List (Nat × Nat) :=
  (match (tileOf s r).copyRun with | some x => x.wait | none => [])
    ++ (lensOf s (clusterOf r)).slots.toList.flatMap (fun x => match x with
      | some x => if x.tile = posOf r then x.wait else []
      | none => [])

/-- Whether an access has waited at the bank of an address since before `n`, one of the lamps and the keeper since `n` (R204). -/
def olderWait (s : State) (r a n : Nat) : Bool :=
  let t := tileOf s r
  let same (x since : Nat) : Bool := decide (since < n) && sramBank x == sramBank a
  lampOlder t a (n + 1)
    || (match t.keeper.sramWait, keeperAddr { s with focus := Fin.ofNat 1024 r } (wordInstr t) with
        | some w, some x => decide (w ≤ n) && sramBank x == sramBank a
        | _, _ => false)
    || (waitingPieces t).any (fun p => same p.addr p.since || p.src.any (fun x => same x p.since))
    || (waitingLoads s r).any (fun p => same p.1 p.2)
where
  /-- The instruction at the PC. -/
  wordInstr (t : Tile) : Instr :=
    match decodeWord (BitVec.ofNat 32 (Mem.load t.sram t.keeper.pc.toNat 4)) with
    | .ok i => i
    | .error _ => .illegal 0

/-- Whether the keeper has put off a store to the bank of an address to the end of this clk: it comes before the engines. -/
def keeperHolds (s : State) (r a : Nat) : Bool :=
  match (tileOf s r).keeper.late with
  | some i => (keeperAddr { s with focus := Fin.ofNat 1024 r } i).any (fun x => sramBank x == sramBank a)
  | none => false

/-- Whether an engine's access that waits since `since` finds its bank free in this clk (R204): one that has waited 16 clk goes before
the lamps, where no other has waited as long; the others take what is left. -/
def bankOpen (s : State) (r : Nat) (aged : Bool) (since a : Nat) : Bool :=
  !bankBusy s (tileOf s r) a
    && (if aged then decide (since + 16 ≤ s.cycle) && !olderWait s r a since else !keeperHolds s r a)

/-! ## The message engine -/

/-- Perform an access of the message engine (R206): what it writes is there, added to what stood there for RECV.ADD. -/
def runPiece (now : Nat) (ty : AddTy) (p : Piece) (t : Tile) : Tile :=
  let t := useBank now p.addr (match p.src with | some a => useBank now a t | none => t)
  let bs := match p.src with | some a => Mem.readN t.sram a p.bytes.length | none => p.bytes
  { t with sram := if p.add then addBytes ty t.sram p.addr bs else Mem.writeN t.sram p.addr bs }

/-- Whether an access of the message engine goes in this clk: its banks are free, nothing it reads has an uncorrectable error
(R224), and nothing before it, among `left`, is still to write what it reads. -/
def pieceGoes (s : State) (r : Nat) (aged : Bool) (left : List Piece) (p : Piece) : Bool :=
  let t := tileOf s r
  bankOpen s r aged p.since p.addr
    && (p.src.all (fun a => bankOpen s r aged p.since a && !t.bad.contains (a / 16 * 16)
      && !left.any (fun q => q.addr / 16 == a / 16)))
    && !((p.add || p.bytes.isEmpty) && t.bad.contains (p.addr / 16 * 16))

/-- Perform the accesses of a list that go in this clk, in its order: the state, those left, those done. -/
def runPieces (r : Nat) (aged : Bool) (ty : AddTy) (ps : List Piece) (s : State) : State × List Piece × List Piece :=
  ps.foldl (fun (acc : State × List Piece × List Piece) p =>
    if pieceGoes acc.1 r aged acc.2.1 p then
      (modTile acc.1 r (runPiece acc.1.cycle ty p), acc.2.1, acc.2.2 ++ [p])
    else (acc.1, acc.2.1 ++ [p], acc.2.2)) (s, [], [])

/-- A send takes what it reads into its message. -/
def takeRead (t : Tile) (m : MSlot) (p : Piece) : MSlot :=
  if (upTo 16 (fun i => decide (p.addr + i < m.buf) || decide (m.buf + m.len ≤ p.addr + i)
      || m.payload.getD (p.addr + i - m.buf) 0 == Mem.read t.sram (p.addr + i))).all id then m
  else { m with payload := reread t m p.addr }

/-- The turn of a request slot: a send reads its buffer, and goes out eager once it has it; a receive writes its own, and has its
last byte with the last of them (R263, R264, R273). -/
def slotBanks (r : Nat) (aged : Bool) (n : Nat) (s : State) : State :=
  match slotAt s r n with
  | none => s
  | some m =>
    if m.todo.isEmpty || (!aged && (tileOf s r).slow.contains n) then s
    else
      let (s', left, done) := runPieces r aged (addTyOf m.d3) m.todo s
      if done.isEmpty then s
      else if m.isSend then
        let m := done.foldl (takeRead (tileOf s r)) { m with todo := left }
        let s := putSlot r n m s'
        if left.isEmpty && m.st == .header && m.subs.any (fun u => u.eager) then emitHeaders r n s else s
      else finishRecv r n (putSlot r n { m with todo := left } s')

/-- The turn of a header-store record: an eager message is acknowledged once it is in the pool (R263, R267). -/
def recordBanks (r : Nat) (aged : Bool) (i : Nat) (s : State) : State :=
  match (tileOf s r).msg.hdrs[i]? with
  | none => s
  | some h =>
    if h.todo.isEmpty then s
    else
      let (s', left, done) := runPieces r aged .f32 h.todo s
      if done.isEmpty then s
      else
        let s := modTile s' r (fun t => { t with msg := { t.msg with hdrs := t.msg.hdrs.set i { h with todo := left } } })
        if left.isEmpty then answerHdr r h.pkt .ack h.pkt.len h.pkt.len s else s

/-- The message engine's part of a clk at the banks: match log, records, then the slots in the order of issue. -/
def messageBanks (r : Nat) (aged : Bool) (s : State) : State :=
  let t := tileOf s r
  let s := if t.msg.logs.isEmpty then s
    else
      let (s', left, _) := runPieces r aged .f32 t.msg.logs s
      modTile s' r (fun t => { t with msg := { t.msg with logs := left } })
  let s := (List.range t.msg.hdrs.length).foldl (fun s i => recordBanks r aged i s) s
  let slots := ((slotList s r).filter (fun q => decide (q.1 < 256) && !q.2.todo.isEmpty))
  (sortBy (fun a b => decide (a.2.stamp < b.2.stamp)) slots).foldl (fun s q => slotBanks r aged q.1 s) s

/-! ## The copy engine and the lens loads -/

/-- The accesses of one command to the banks in a clk: those that find their bank free are granted, those left wait. The accesses
that one command presents in a clk do not meet each other (log entry 7). -/
def grantLoads (r : Nat) (aged : Bool) (as : List (Nat × Nat)) (s : State) : List (Nat × Nat) × State :=
  let (go, left) := as.partition (fun p => bankOpen s r aged p.2 p.1)
  (left, modTile s r (fun t => go.foldl (fun t p => useBank s.cycle p.1 t) t))

/-- The first accesses of a list, spread over `clks` clk, with the rest. -/
def shareOf (clks : Nat) (as : List Nat) : List Nat × List Nat := as.splitAt (ceilDiv as.length clks)

/-- The copy engine's part of a clk (R204, R283): what waits goes first, and while anything waits the command gets no further. -/
def copyBanks (r : Nat) (aged : Bool) (s : State) : State :=
  let t := tileOf s r
  match t.copyRun with
  | none => s
  | some x =>
    if copyHeld t || x.fail.isSome || decide (s.cycle < x.begins) then s
    else
      let put (wait : List (Nat × Nat)) (x : CopyRun) (s : State) : State :=
        modTile s r (fun t => { t with copyRun := some { x with
          wait := wait, doneAt := if wait.isEmpty || aged then x.doneAt else x.doneAt + 1 } })
      if !x.wait.isEmpty then
        let (left, s) := grantLoads r aged x.wait s
        put left x s
      else if aged || decide (x.doneAt < s.cycle) then s
      else
        let n := x.doneAt - s.cycle + 1
        let (a, reads) := shareOf n x.reads
        let (b, writes) := shareOf n x.writes
        let (left, s) := grantLoads r false ((a ++ b).map (fun g => (g, s.cycle))) s
        put left { x with reads := reads, writes := writes, acc := x.acc - 1 } s

/-- The part of a lens load in a clk (R204, R320): a load of which an access waits ends one clk later. -/
def loadBanks (r : Nat) (aged : Bool) (i : Fin 2) (s : State) : State :=
  let c := clusterOf r
  match slotOf (lensOf s c) i with
  | none => s
  | some x =>
    if x.tile ≠ posOf r || !x.isLoading s.cycle then s
    else
      let put (wait : List (Nat × Nat)) (todo : List Nat) (s : State) : State :=
        modLens s c (setSlot i (some { x with
          wait := wait, todo := todo,
          loadFrom := if wait.isEmpty || aged then x.loadFrom else x.loadFrom.map (fun n => n + 1) }))
      if !x.wait.isEmpty then
        let (left, s) := grantLoads r aged x.wait s
        put left x.todo s
      else if aged then s
      else
        let n := x.loadFrom.getD 0 + loadClk x.cmd - s.cycle
        let (a, todo) := shareOf (Nat.max 1 n) x.todo
        let (left, s) := grantLoads r false (a.map (fun g => (g, s.cycle))) s
        put left todo s

/-! ## The turn -/

/-- The part of the engines of a tile in a clk, lowest place last (R204). -/
def enginesAt (r : Nat) (aged : Bool) (s : State) : State :=
  loadBanks r aged 1 (loadBanks r aged 0 (copyBanks r aged (messageBanks r aged s)))

/-- Whether the engines of a tile have an access to make in this clk, and have not had their turn. -/
def banksDue (s : State) (r : Nat) : Bool :=
  let t := tileOf s r
  t.engClk != s.cycle + 1
    && (!(waitingPieces t).isEmpty || t.copyRun.isSome
      || (lensOf s (clusterOf r)).slots.toList.any (fun x => match x with
        | some x => x.tile == posOf r && x.isLoading s.cycle
        | none => false))

/-- The turn of the engines of a tile at its banks in this clk. -/
def banksTurn (r : Nat) (s : State) : State :=
  enginesAt r false (modTile s r (fun t => { t with engClk := s.cycle + 1 }))

/-- The accesses of the engines of a tile that have waited 16 clk, at the start of a clk (R204). -/
def agedBanks (s : State) (r : Nat) : State :=
  let old (n : Nat) : Bool := decide (n + 16 ≤ s.cycle)
  if (waitingPieces (tileOf s r)).any (fun p => old p.since) || (waitingLoads s r).any (fun p => old p.2) then enginesAt r true s
  else s

end Sys2Proof.Machine
end

