-- ==== Sys2Proof/Machine/Station.lean ====
section
/-! DEFINITION. The station handler where the lightship holds no station firmware (R456, R458; log entry 16): Park and Unpark, with
the save record, and the return from a DEBUG trap. -/

namespace Sys2Proof.Machine

/-! ## The save record (R456) -/

/-- The job whose resident slot LSCMD of a tile names (R453). -/
def cmdJob (s : State) (t : Tile) : Option Job := vget s.ls.jobs (fld t.ctrl.lscmd 4 2) none

/-- The base of the save record of a tile in its save window: S = p * 0x40_0000. -/
def saveStart (t : Tile) : Nat := fld t.ctrl.lscmd 16 16 * 0x400000

/-- Write bytes of the save record. -/
def putSave (w : W64) (o : Nat) (bs : List Byte) (s : State) : State := { s with hbm := writeWin w o bs s.hbm }

/-- Read bytes of the save record. -/
def getSave (s : State) (w : W64) (o n : Nat) : List Byte := upTo n (fun i => Mem.read s.hbm (hbmAddr w (o + i)))

/-- A word of the save record. -/
def saveWord (s : State) (w : W64) (o : Nat) : W64 := BitVec.ofNat 64 (leNat (getSave s w o 8))

/-- The listed bytes of SRAM below a limit into the save record, whose others read as unlisted ones do. -/
def saveSram (w : W64) (base limit : Nat) (sram hbm : Mem) : Mem :=
  (sram.filter (fun p => decide (p.1 < limit))).foldl (fun m p => Mem.write m (hbmAddr w (base + p.1)) p.2)
    (hbm.filter (fun p => !(winOffset w p.1).any (fun o => decide (base ≤ o ∧ o < base + limit))))

/-- SRAM below a limit as the save record holds it. -/
def loadSram (w : W64) (base limit : Nat) (sram hbm : Mem) : Mem :=
  hbm.foldl (fun m p => match winOffset w p.1 with
    | some o => if base ≤ o ∧ o < base + limit then Mem.write m (o - base) p.2 else m
    | none => m) (sram.filter (fun p => decide (limit ≤ p.1)))

/-- The control registers of the job that the register block holds, in order of number: those that station code may write. -/
def blockRegs : List Nat := (List.range 0x100).filter (fun n => crAssigned n && !crFixed n && !(decide (9 ≤ n ∧ n ≤ 0xB)))

/-- The register block, 8 bytes a register: k1 to k31, STRAPPC, in_trap, TRAPPC, TRAPCAUSE, TRAPVAL, and the control registers. -/
def registerBlock (now : Nat) (t : Tile) : List W64 :=
  let st := { t with keeper := { t.keeper with station := true } }
  (upTo 31 (fun i => t.keeper.get (BitVec.ofNat 5 (i + 1))))
    ++ [t.ctrl.strappc, BitVec.ofNat 64 (ofBool t.keeper.inTrap), t.ctrl.trappc, t.ctrl.trapcause, t.ctrl.trapval]
    ++ blockRegs.map (crRead now st)

/-- A tile with the registers of a register block, k1 to k31 last. -/
def restoreRegisters (r : Nat) (ws : List W64) (t : Tile) : Tile :=
  let at_ (i : Nat) : W64 := ws.getD i 0
  let t := (blockRegs.zipIdx).foldl (fun t x => (crPut r t x.1 (at_ (36 + x.2))).getD t) t
  { t with
    ctrl := { t.ctrl with strappc := at_ 31, trappc := at_ 33, trapcause := at_ 34, trapval := at_ 35 }
    keeper := (List.range 31).foldl (fun k i => k.put (BitVec.ofNat 5 (i + 1)) (at_ i)) { t.keeper with inTrap := bit (at_ 32) 0 } }

/-- The banks allocated or reserved to a tile, in increasing order. -/
def banksOf (s : State) (r : Nat) : List Nat :=
  (List.range 128).filter (fun b =>
    let x := SMap.getD (lensOf s (clusterOf r)).banks b Bank.reset
    x.st != .free && x.tile == posOf r)

/-- The 8,192 bytes of a bank: 32 rows of 64 words. -/
def bankBytes (s : State) (c b : Nat) : List Byte :=
  (List.range 32).flatMap (fun i => (List.range 64).flatMap (fun w => leBytes 4 (accWord s c (32 * b + i) w).toNat))

/-- The places of the save record: registers, bank table, banks, and the blocks that LSPILL.out gives (log entry 16). -/
def regsAt : Nat := 0x200000
def bankTableAt : Nat := 0x201000
def banksAt : Nat := 0x202000
def blocksAt : Nat := 0x302000

/-- A bank of the tile into the save record: its words and its state word (R456). -/
def saveBank (w : W64) (base r : Nat) (s : State) (b : Nat) : State :=
  putSave w (base + bankTableAt + 8 * b) (leBytes 8 (bankWord (lensOf s (clusterOf r)) b).toNat)
    (putSave w (base + banksAt + 8192 * b) (bankBytes s (clusterOf r) b) s)

/-- The tile's allocated banks are free; a reserved one waits for its ACC.ALLOC (R347). -/
def freeBanks (r : Nat) (s : State) : State :=
  modLens s (clusterOf r) (fun l => { l with banks := l.banks.filter (fun p => !bankMine p.2 (posOf r)) })

/-- The parked blocks of a tile in spill order. -/
def parkedPlaces (t : Tile) : List ((Bool × Nat × Nat) × Nat) :=
  ((spillOrder t.saved).filter (fun x => !x.2.2)).map (fun x => (x.1, x.2.1))

/-- The bytes of a block of the workspace store. -/
def blockBytes (t : Tile) (blk : Nat) : List Byte :=
  (List.range 8).flatMap (fun j => leBytes 16 (SMap.getD t.ws (blk * 8 + j) 0).toNat)

/-- Every parked block into the save record; the blocks are free (R100, R305). -/
def spillParked (w : W64) (base r : Nat) (s : State) : State :=
  ((parkedPlaces (tileOf s r)).zipIdx).foldl (fun s x =>
    modTile (putSave w (base + blocksAt + 128 * x.2) (blockBytes (tileOf s r) x.1.2) s) r (fun t =>
      { t with saved := setPlace x.1.1 x.1.2 true t.saved, free := t.free ++ [x.1.2] })) s

/-- Each spilled pointer of the active set gets a free block with its bytes back (R305). -/
def fillParked (w : W64) (base r : Nat) (s : State) : State :=
  ((spilledPlaces (tileOf s r)).zipIdx).foldl (fun s x =>
    match popFree s r with
    | none => s
    | some (blk, s) =>
      let bs := getSave s w (base + blocksAt + 128 * x.2) 128
      modTile s r (fun t => { t with
        act := setPlace x.1 blk false t.act,
        ws := (List.range 8).foldl (fun m j => SMap.insert m (blk * 8 + j) (BitVec.ofNat 128 (leNat ((bs.drop (16 * j)).take 16)))) t.ws })) s

/-! ## Park and Unpark (R456) -/

/-- Whether no job command is running on any engine of a tile (R455): a DRAIN whose handlers the park has stopped keeps its rows, and
what follows it waits (R338; log entry 16). -/
def enginesQuiet (s : State) (r : Nat) : Bool :=
  let t := tileOf s r
  let l := lensOf s (clusterOf r)
  let job (p : Nat) (c : KCmd) : Bool := p == posOf r && !c.station
  !inData t && t.copyRun.all (fun x => x.cmd.station) && t.failing.all (fun x => x.1.station)
    && l.slots.toList.all (fun x => x.all (fun y => !job y.tile y.cmd))
    && (l.accepted.any (fun a => job a.tile a.cmd && a.cmd.op == 0x76) || l.accepted.all (fun a => !job a.tile a.cmd))

/-- Park of a tile that is quiet, into the save window `w`. -/
def parkTile (w : W64) (r : Nat) (s : State) : State :=
  let t := tileOf s r
  let base := saveStart t
  let s := putSave w (base + regsAt) ((registerBlock s.cycle t).flatMap (fun v => leBytes 8 v.toNat)) s
  let s := putSave w (base + bankTableAt) (List.replicate 1024 0) s
  let s := freeBanks r ((banksOf s r).foldl (saveBank w base r) s)
  let s := spillParked w base r (modTile s r (swapLamps s.cycle))
  let s := modTile s r (fun t => dropEnded s (swapCtx t))
  lscmdStore r 0 { s with hbm := saveSram w base (jobLimit (tileOf s r)) (tileOf s r).sram s.hbm }

/-- The state word of a saved bank put back, and its words (R350, R454). -/
def restoreBank (w : W64) (base r : Nat) (s : State) (b : Nat) : State :=
  let v := saveWord s w (base + bankTableAt + 8 * b)
  if fld v 0 2 < 2 ∨ fld v 2 3 ≠ posOf r then s
  else
    let bs := getSave s w (base + banksAt + 8192 * b) 8192
    let s := modLens s (clusterOf r) (fun l => { l with banks := SMap.insert l.banks b (putBankWord v) })
    (List.range 32).foldl (fun s i =>
      putAccWords (clusterOf r) (32 * b + i) 0 (upTo 64 (fun j => BitVec.ofNat 32 (leNat ((bs.drop (256 * i + 4 * j)).take 4)))) s) s

/-- Unpark of a tile from the save window `w`, up to its TRET; EVENTS.preempt is clear again (R217). -/
def unparkTile (w : W64) (r : Nat) (banks : List Nat) (s : State) : State :=
  let base := saveStart (tileOf s r)
  let ws := upTo (36 + blockRegs.length) (fun i => saveWord s w (base + regsAt + 8 * i))
  let limit := ((blockRegs.findIdx? (fun n => n == 0x010)).map (fun i => (ws.getD (36 + i) 0).toNat)).getD 0
  let s := modTile s r (fun t => { t with sram := loadSram w base limit t.sram s.hbm })
  let s := modTile s r (fun t => dropEnded s (swapCtx t))
  let s := fillParked w base r (modTile s r (swapLamps s.cycle))
  let s := banks.foldl (restoreBank w base r) s
  let s := modTile s r (fun t =>
    let t := restoreRegisters r ws t
    { t with ctrl := { t.ctrl with events := t.ctrl.events &&& ~~~ oneBit 38 }, msg := { t.msg with quiesced := false } })
  lscmdStore r 0 s

/-- The banks that a save record names. -/
def savedBanks (s : State) (w : W64) (base : Nat) (r : Nat) : List Nat :=
  (List.range 128).filter (fun b =>
    let v := saveWord s w (base + bankTableAt + 8 * b)
    decide (2 ≤ fld v 0 2) && fld v 2 3 == posOf r)

/-- Whether the built-in handler stands in for the firmware on a tile: it is at the entry of the station handler, and the lightship
holds no station firmware. -/
def builtIn (s : State) (t : Tile) : Bool :=
  s.ls.stFirmware.isEmpty && t.keeper.started && !t.keeper.debugHalt && t.keeper.station && t.keeper.pc == 0x1F0000

/-- The handler of a DEBUG trap: EVENTS.debug is cleared, the command acknowledged, and the keeper returns (R458). -/
def debugReturn (r : TileId) (s : State) : State :=
  let s := lscmdStore r.val 0 (modTile s r.val (fun t =>
    { t with ctrl := { t.ctrl with events := t.ctrl.events &&& ~~~ oneBit 39, strapcause := putFld t.ctrl.strapcause 0 4 0 } }))
  endPark (trapReturn { s with focus := r })

/-- What the built-in station handler does next on a tile, none where it waits (R453, R456, R458). -/
def tryStation (r : TileId) (s : State) : Option State :=
  let t := tileOf s r.val
  let cmd := fld t.ctrl.lscmd 0 4
  if !builtIn s t || decide (s.cycle < t.keeper.issueAt) then none
  else match cmd, cmdJob s t with
  | 1, some j =>
    if fld t.ctrl.strapcause 0 4 ≠ 10 then (if fld t.ctrl.strapcause 0 4 = 11 then some (debugReturn r s) else none)
    else if !t.msg.quiesced then some (modTile s r.val (fun t => { t with msg := { t.msg with quiesced := true } }))
    else if !enginesQuiet s r.val then none
    else some (parkTile (saveEntry j) r.val s)
  | 2, some j =>
    let w := saveEntry j
    let s := unparkTile w r.val (savedBanks s w (saveStart t) r.val) s
    some (endPark (trapReturn { s with focus := r }))
  | _, _ => if fld t.ctrl.strapcause 0 4 = 11 then some (debugReturn r s) else none

end Sys2Proof.Machine
end

