-- ==== Sys2Proof/Machine/Sched.lean ====
section
/-! DEFINITION. What moves next (log entry 2): the instruction that a keeper issues (R198, R229, R230), the steps that the
other units take in a clk, in phases that keep R499, and the passing of a clk. -/

namespace Sys2Proof.Machine

/-! ## The keeper (R198, R204, R218, R229, R230) -/

/-- The registers that an instruction reads (R229, R242). -/
def readsOf (i : Instr) : List (BitVec 5) :=
  match i with
  | .add _ a b => [a, b]
  | .sub _ a b => [a, b]
  | .and _ a b => [a, b]
  | .or _ a b => [a, b]
  | .xor _ a b => [a, b]
  | .andn _ a b => [a, b]
  | .shl _ a b => [a, b]
  | .shr _ a b => [a, b]
  | .sar _ a b => [a, b]
  | .slt _ a b => [a, b]
  | .sltu _ a b => [a, b]
  | .min _ a b => [a, b]
  | .max _ a b => [a, b]
  | .minu _ a b => [a, b]
  | .maxu _ a b => [a, b]
  | .mul _ a b => [a, b]
  | .mulh _ a b => [a, b]
  | .mulhu _ a b => [a, b]
  | .div _ a b => [a, b]
  | .divu _ a b => [a, b]
  | .rem _ a b => [a, b]
  | .remu _ a b => [a, b]
  | .popc _ a => [a]
  | .clz _ a => [a]
  | .ctz _ a => [a]
  | .addi _ a _ => [a]
  | .andi _ a _ => [a]
  | .ori _ a _ => [a]
  | .xori _ a _ => [a]
  | .slti _ a _ => [a]
  | .sltiu _ a _ => [a]
  | .shli _ a _ => [a]
  | .shri _ a _ => [a]
  | .sari _ a _ => [a]
  | .addhi _ a _ => [a]
  | .lb _ a _ => [a]
  | .lbu _ a _ => [a]
  | .lh _ a _ => [a]
  | .lhu _ a _ => [a]
  | .lw _ a _ => [a]
  | .lwu _ a _ => [a]
  | .ld _ a _ => [a]
  | .ldSk _ a _ => [a]
  | .sb s a _ => [s, a]
  | .sh s a _ => [s, a]
  | .sw s a _ => [s, a]
  | .sd s a _ => [s, a]
  | .sdSk s a _ => [s, a]
  | .beq a b _ => [a, b]
  | .bne a b _ => [a, b]
  | .blt a b _ => [a, b]
  | .bge a b _ => [a, b]
  | .bltu a b _ => [a, b]
  | .bgeu a b _ => [a, b]
  | .jalr _ a _ => [a]
  | .crw s _ => [s]
  | .crs s _ => [s]
  | .crc s _ => [s]
  | .waitev _ a => [a]
  | .twait a => [a]
  | .twaita _ a => [a]
  | .done a => [a]
  | .ann _ a b _ => [a, b]
  | .annL _ b _ => [b]
  | .voteAnd _ a b _ => [a, b]
  | .voteOr _ a b _ => [a, b]
  | .voteMax _ a b _ => [a, b]
  | .voteMin _ a b _ => [a, b]
  | .voteMaxs _ a b _ => [a, b]
  | .voteMins _ a b _ => [a, b]
  | .scan _ k _ _ _ => [k, k + 1, k + 2, k + 3]
  | .bar _ a _ => [a]
  | .barx _ a _ => [a]
  | .cpMove _ k _ _ _ _ => [k, k + 1, k + 2, k + 3]
  | .cpGather _ k _ _ => [k, k + 1, k + 2, k + 3]
  | .cpScatter _ k _ _ => [k, k + 1, k + 2, k + 3]
  | .cpPlane _ k _ _ => [k, k + 1, k + 2, k + 3]
  | .cpUnplane _ k _ _ => [k, k + 1, k + 2, k + 3]
  | .cpPx8Enc _ k _ _ => [k, k + 1, k + 2, k + 3]
  | .cpPx8Dec _ k _ _ => [k, k + 1, k + 2, k + 3]
  | .cpPx8Bf16 _ k _ _ => [k, k + 1, k + 2, k + 3]
  | .cpPx8Encbf _ k _ _ => [k, k + 1, k + 2, k + 3]
  | .cpCvt _ k _ _ => [k, k + 1, k + 2, k + 3]
  | .cpAcc _ k _ _ _ => [k, k + 1, k + 2, k + 3]
  | .cpTopk _ k _ _ _ => [k, k + 1, k + 2, k + 3]
  | .cpFill _ k _ _ => [k, k + 1, k + 2, k + 3]
  | .turn _ a => [a]
  | .turnW _ a => [a]
  | .turnq _ a => [a]
  | .turnqTx _ a => [a]
  | .turnqRx _ a => [a]
  | .winset _ k _ _ => [k, k + 1, k + 2, k + 3]
  | .winq _ a => [a]
  | .winqSt _ a => [a]
  | .winqAllot _ a => [a]
  | .flash a b => [a, b]
  | .lstart a b => [a, b]
  | .lstop a => [a]
  | .ljoin _ a => [a]
  | .lgroup a b => [a, b]
  | .lstate _ a => [a]
  | .lwrite a b => [a, b]
  | .lspillOut _ k _ _ => [k, k + 1, k + 2, k + 3]
  | .lspillIn _ k _ _ => [k, k + 1, k + 2, k + 3]
  | .send _ k _ _ => [k, k + 1, k + 2, k + 3]
  | .ssend _ k _ _ => [k, k + 1, k + 2, k + 3]
  | .sendTree _ k _ _ => [k, k + 1, k + 2, k + 3]
  | .recv _ k _ _ => [k, k + 1, k + 2, k + 3]
  | .recvAdd _ k _ _ => [k, k + 1, k + 2, k + 3]
  | .recvPx8 _ k _ _ => [k, k + 1, k + 2, k + 3]
  | .probe _ a b => [a, b]
  | .probeLen _ a b => [a, b]
  | .cancel _ a => [a]
  | .mwait _ a => [a]
  | .mtest _ a b => [a, b]
  | .mstat _ a => [a]
  | .mquiesce a => [a]
  | .lmm _ k _ _ => [k, k + 1, k + 2, k + 3]
  | .lmms _ k _ _ => [k, k + 1, k + 2, k + 3]
  | .lrank _ k _ _ => [k, k + 1, k + 2, k + 3]
  | .accLoad _ k _ _ => [k, k + 1, k + 2, k + 3]
  | .accClr _ k _ _ => [k, k + 1, k + 2, k + 3]
  | .accMerge _ k _ _ => [k, k + 1, k + 2, k + 3]
  | .drain _ k _ _ => [k, k + 1, k + 2, k + 3]
  | .accFree _ k _ _ => [k, k + 1, k + 2, k + 3]
  | .accOwn _ k _ _ => [k, k + 1, k + 2, k + 3]
  | .accAlloc _ a => [a]
  | .lqueryStatus _ a => [a]
  | .lqueryFault _ a => [a]
  | .lqueryBank _ a => [a]
  | _ => []

/-- Whether an instruction loads from SRAM (R233): it reads after the lamps have had their banks, and before what other units
write in this clk is there (R204, R499). -/
def isLoad : Instr → Bool
  | .lb _ _ _ | .lbu _ _ _ | .lh _ _ _ | .lhu _ _ _ | .lw _ _ _ | .lwu _ _ _ | .ld _ _ _ | .ldSk _ _ _ => true
  | _ => false

/-- Whether the keeper would read a granule with an uncorrectable error, whose data is never delivered (R224): the word at the PC, or
what a load names. -/
def readsBadWord (s : State) (i : Instr) : Bool :=
  let t := cur s
  let bad (a : Nat) : Bool := t.bad.contains (a / 16 * 16)
  !t.bad.isEmpty && (bad t.keeper.pc.toNat || (isLoad i && (keeperAddr s i).any bad))

/-- Whether an instruction finds its registers delivered (R229), and what it reads. -/
def regsReady (s : State) (i : Instr) : Bool :=
  (readsOf i).all (fun a => decide (vget (cur s).keeper.regReady a.toNat 0 ≤ s.cycle)) && !readsBadWord s i

/-- Whether an instruction finds its registers delivered and its bank free (R204, R229). -/
def mayIssue (s : State) (i : Instr) : Bool :=
  let t := cur s
  regsReady s i
    && (match keeperAddr s i with
        | some a => !bankBusy s t a
        | none => true)

/-- The word at the PC (R198, R225). -/
def fetchWord (t : Tile) : W32 := BitVec.ofNat 32 (Mem.load t.sram t.keeper.pc.toNat 4)

/-- What the word at the PC is to the keeper: a fetch outside the bounds traps (R198), and so does an illegal word (R226). -/
def fetched (s : State) : Instr :=
  let t := cur s
  if !inBounds t t.keeper.station t.keeper.pc.toNat 4 then .fetchSramBound
  else match decodeWord (fetchWord t) with
    | .ok i => i
    | .error _ => .illegal (fetchWord t)

/-- Whether a keeper runs: started, neither under a debug halt nor stopped for a rollback (R222, R444, R458). -/
def keeperOn (t : Tile) : Bool :=
  t.keeper.started && !t.keeper.debugHalt && !t.mismatch && t.duplex != .follower

/-- What the keeper of the tile in focus would do in this clk, `may` saying which instruction can issue, none where it stands: a
due trap (R218, R219), its waiting instruction (R240, R243), or the instruction at its PC. -/
def keeperMoveIf (may : State → Instr → Bool) (s : State) : Option Instr :=
  let t := cur s
  if !keeperOn t || decide (s.cycle < t.keeper.issueAt) then none
  else if (dueTrap t).isSome then some .takeTrap
  else if t.keeper.halted then none
  else if t.keeper.waiting.isSome then some .keeperWaitComplete
  else if may s (fetched s) then some (fetched s) else none

/-- What the keeper of the tile in focus does in this clk where its access finds its bank free. -/
def keeperMove (s : State) : Option Instr := keeperMoveIf mayIssue s

/-- Whether the keeper of the tile in focus presents an access to a bank that it does not get in this clk (R204). -/
def bankWaits (s : State) : Bool :=
  let t := cur s
  keeperOn t && decide (t.keeper.issueAt ≤ s.cycle) && (dueTrap t).isNone && !t.keeper.halted && t.keeper.waiting.isNone
    && regsReady s (fetched s) && (match keeperAddr s (fetched s) with
      | some a => bankBusy s t a
      | none => false)

/-- Note from when the keeper's access has waited (R204). -/
def noteWait (s : State) (r : Nat) (t : Tile) : Tile :=
  let w := bankWaits { s with focus := Fin.ofNat 1024 r }
  { t with keeper := { t.keeper with sramWait := if w then some (t.keeper.sramWait.getD s.cycle) else none } }

/-- The control registers that only the keeper itself, a trap or the event logic looks at (R201). -/
def ownRegister (n : Nat) : Bool :=
  n == 0x005 || decide (0x008 ≤ n ∧ n ≤ 0x00E) || n == 0x101 || decide (0x110 ≤ n)

/-- Whether the effect of an instruction on other units of the tile comes at the end of its clk: they see it from the next clk
on (R499), whatever the instruction itself sees at the start. -/
def actsLate : Instr → Bool
  | .flash _ _ | .lstart _ _ | .lstop _ | .lgroup _ _ | .lswap | .dhalt | .cancel _ _ | .mquiesce _ => true
  | .crw _ n | .crs _ n | .crc _ n => !ownRegister n.toNat
  | .winset _ _ _ _ | .scan _ _ _ _ _ => true
  | i => (copyParts i).isSome || (lensParts i).isSome || (msgParts i).isSome

/-- Whether what the keeper of the tile in focus does in this clk is put off within the clk: its SRAM accesses until the lamps
have had their banks (R204), and effects that other units see from the next clk on. -/
def putsOff (s : State) (i : Instr) : Bool :=
  let t := cur s
  match i with
  | .keeperWaitComplete => (t.keeper.waiting.map actsLate).getD false
  | .takeTrap => (dueTrap t).any (fun x => x.1 == 10 || x.1 == 11)
  | _ => actsLate i || (match keeperAddr s i with
    | some a => !keeperOld s t a
    | none => false)

/-! ## The passing of a clk -/

/-- The duties of the lightship by time: the duty is looked at every 1 ms (R466). -/
def lsClk (s : State) : State := if s.cycle % 1500000 = 0 ∧ 0 < s.cycle then stepDuty s else s

/-- The bundles that a repetition begun at a step has a lamp execute beyond its first pass (R85, R191). -/
def Lamp.extraAt (x : Lamp) (k : Nat) : Nat := sumN ((x.reps.filter (fun p => p.1 == k)).map Prod.snd)

/-- A lamp leaves lock-step where a repetition has it execute more bundles than a partner of its flash that has come past the same
step (R78; log entry 101). -/
def leaveLockStep (t : Tile) : Tile :=
  mapLamps (fun _ x =>
    if x.st = .flashed && x.flash != 0 && x.reps.any (fun p => t.act.lamps.toList.any (fun y =>
        y.st == .flashed && y.flash == x.flash && decide (p.1 < y.steps) && decide (y.extraAt p.1 < x.extraAt p.1))) then
      { x with st := .running }
    else x) t

/-- Whether the copy engine reads accumulator memory in the clk that begins, and so keeps the accumulator-row port busy (R182,
R283). -/
def accBusy (now : Nat) (t : Tile) : Bool :=
  !copyHeld t && t.copyRun.any (fun x =>
    x.fail.isNone && x.wait.isEmpty && decide (x.begins ≤ now) && x.acc != 0)

/-- What one clk does to a tile: the timer (R202), the end of a PREEMPT deferral (R455), a frozen copy engine (R83), and
the view that the units have of each other at the start of the next clk, `now` (R499). -/
def tileClk (now : Nat) (t : Tile) : Tile :=
  let t := endDeferral now (setTimer now t)
  let t := if t.freezes.isEmpty then t else { t with copyRun := t.copyRun.map (fun c => { c with doneAt := c.doneAt + 1 }) }
  let t := mapLamps (fun _ x => { x with old := none, seen := x.st }) (leaveLockStep t)
  { t with
    fresh := [], tokSeen := tokLo t false, stokSeen := tokLo t true,
    accClk := if accBusy now t then now + 1 else t.accClk,
    slow := [], parkSeen := t.keeper.preempted, logSeen := t.ctrl.matchlog, checkSeen := t.ctrl.checkmode, allocNew := none }

/-- Whether a DRAIN keeps the next copy command from starting, as it is seen at the start of a clk (R328, R499). -/
def seeDrain (s : State) (r : Nat) (t : Tile) : Tile :=
  { t with drainSeen := (copyHead t).any (fun c => drainBefore s r c) }

/-- Waiting SCAN and WINSET commands whose input tokens are set go on (R393, R436). -/
def startWaiting (s : State) : State :=
  (s.tiles.map Prod.fst).foldl (fun s r =>
    if h : r < 1024 then
      let n := (tileOf s r).eng.scanQ.length
      if n = 0 then s else startWinsets ⟨r, h⟩ n (startScans ⟨r, h⟩ n s)
    else s) s

/-- Whether a node of the mesh has something to carry. -/
def nodeBusy (s : State) (k : Nat) : Bool :=
  let x := routerOf s k
  x.inBufs.any (fun q => !q.2.isEmpty) || x.inject.any (fun q => !q.2.isEmpty) || !x.returns.isEmpty
    || (pullAt k 4 s).isSome || (k % 256 == 136 && (pullAt k 5 s).isSome)

/-- The nodes of the mesh that something may have changed: routers that hold something, live tiles, the tiles of the
lightship ports (R500) and the S-dies. -/
def liveNodes (s : State) : List NetNode :=
  ((s.routers.map Prod.fst).filter (fun k => decide (k < 1024)) ++ (s.tiles.map Prod.fst).filter (fun k => decide (k < 1024))
    ++ [136, 392, 648, 904]).eraseDups.map (fun k => NetNode.tile (Fin.ofNat 1024 k))
    ++ (List.finRange 8).map NetNode.sdie

/-- One clk of a router: what waits at its inputs grows older (R379, R380). -/
def ageNode (s : State) (k : Nat) : State := if nodeBusy s k then ageRouter k (refillAll k s) else s

/-- The compute tiles that something has changed. -/
def liveTiles (s : State) : List TileId :=
  s.tiles.filterMap (fun p => if h : p.1 < 1024 ∧ p.2.duplex ≠ .follower then some ⟨p.1, h.1⟩ else none)

/-- One clk passes. -/
def clkStep (s : State) : State :=
  let s := { s with tiles := SMap.mapVals s.tiles (noteWait s) }
  let s := startWaiting s
  let s := (List.range 10).foldl (fun s m => orStay (drainPort m s) (tryKeyUpdate m (drainPort m s))) s
  let s := (liveNodes s).foldl (fun s n => ageNode s (nodeKey n)) s
  let s := { s with domains := s.domains.map (holdTimeouts s), cycle := s.cycle + 1, phase := 0 }
  let s := { s with
    tiles := SMap.mapVals s.tiles (fun _ t => tileClk s.cycle t), lenses := SMap.mapVals s.lenses (fun _ l => { l with turn := none }) }
  let s := { s with tiles := SMap.mapVals s.tiles (seeDrain s) }
  lsClk ((liveTiles s).foldl (fun s r => agedBanks s r.val) s)

/-! ## The steps of a clk (R499) -/

/-- The first step of a list that would do something. -/
def pick (xs : List (Instr × Bool)) : Option Instr := (xs.find? (fun x => x.2)).map Prod.fst

/-- The lenses that something has changed, and those of live tiles. -/
def liveLenses (s : State) : List LensId :=
  ((liveTiles s).map (fun r => clusterOf r.val) ++ s.lenses.map Prod.fst).eraseDups.filterMap (fun c =>
    if h : c < 128 then some ⟨c, h⟩ else none)

/-- The units with a message engine that something has changed. -/
def liveEngines (s : State) : List Nat :=
  (liveTiles s).map (fun r => r.val) ++ s.servers.map (fun p => 0x400 + p.1) ++ [lsRank]

/-- Results of the beacon network that are due at the start of a clk (R385, R394, R396). -/
def beaconDue (s : State) : Option Instr :=
  ((List.range s.domains.length).findSome? (fun i => pick [(.barRelease i, (tryBarRelease i s).isSome)])).or <|
    (pick [(.beaconWindow false, (runBeaconWindow false s).domains != s.domains),
           (.beaconWindow true, (runBeaconWindow true s).domains != s.domains)]).or
    ((List.range s.domains.length).findSome? (fun i => pick [(.timeoutComplete i, (tryTimeoutComplete i s).isSome)]))

/-- What a domain does at the end of a clk in which a member has arrived or a limit is reached (R387, R396). -/
def domainEnds (s : State) (i : Nat) : Option Instr :=
  pick [(.barCommit i, (tryBarCommit i s).isSome), (.domainBreak i, (tryDomainBreak i s).isSome)]

/-- The slots of a unit by the place of their commands in the order of issue (R256, R257). -/
def slotsByIssue (s : State) (e : Nat) : List Nat :=
  (sortBy (fun a b => decide (a.2.stamp < b.2.stamp)) (slotList s e)).map Prod.fst

/-- The engine and boot steps that begin at a unit with a message engine. -/
def engineStarts (s : State) (e : Nat) : Option Instr :=
  let b := BitVec.ofNat 16 e
  let slots := slotsByIssue s e
  let own : List (Instr × Bool) :=
    if h : e < 1024 then
      let r : TileId := ⟨e, h⟩
      [(.copyCommandStart r, (tryCopyStart r s).isSome), (.imageForward r, (tryImageForward e s).isSome),
       (.keeperStart r, (tryKeeperStart e s).isSome), (.replayPair r, (tryReplayPair e s).isSome && replayDue (tileOf s e))]
        ++ slots.map (fun n => (.receivePost r n, (tryReceivePost e n s).isSome))
        ++ slots.map (fun n => (.sendStart r n, (trySendStart e n s).isSome))
    else []
  let table := (msgOf s e).sends
  let full := if 4096 ≤ table.length then (table.filter (fun x => retireSend e x s != s)).map (fun x =>
    (Instr.streamRetire b x.peer x.group, true)) else []
  pick (own ++ slots.map (fun n => (.nackRetry b n, (tryNackRetry e n s).isSome))
    ++ slots.map (fun n => (.orderedComplete b n, (tryOrdered e n s).isSome)) ++ full)

/-- The step of the first packet that waits at a unit. -/
def arrivalOf (e : Nat) (p : Packet) : Instr :=
  let b := BitVec.ofNat 16 e
  match p.kind with
  | .eager => .eager b 0
  | .rts => .rts b 0
  | .cts => .cts b 0
  | .data => .data b 0
  | .ack => .ack b 0
  | .stub => .stub b 0
  | .nack => .nack b 0
  | .abort => .abort b 0
  | .refuse => .refuse b 0

/-- The steps by which a lens begins something (R319, R321, R323). -/
def lensStarts (s : State) (c : LensId) : Option Instr :=
  pick ([(.arbiterGrant c, (tryGrantLens c s).isSome)]
    ++ (List.finRange 2).map (fun i => (.computeStart c i, (tryComputeStart c i s).isSome))
    ++ (List.finRange 8).map (fun p => (.bankCommandAccept c p, (tryAccept c p s).isSome)))

/-- The steps by which a lens ends something (R314, R319, R329). -/
def lensEnds (s : State) (c : LensId) : Option Instr :=
  pick ((List.finRange 2).map (fun i => (.loadComplete c i, (tryLoadComplete c i s).isSome))
    ++ [(.blockStep c, (tryBlockStep c s).isSome),
        (.rowOperation c, (tryDrainEnd c s).isSome || (lensOf s c.val).turn.isSome)])

/-- The steps of a server tile (R424, R429). -/
def serverMove (s : State) (v : Fin 32) : Option Instr :=
  let n := v.val
  pick [(.serverDispatch v, (tryServerDispatch n s).isSome), (.read v, (tryRead n s).isSome), (.write v, (tryWrite n s).isSome),
    (.gather v, (tryGather n s).isSome), (.reduce v, (tryReduce n s).isSome), (.convert v, (tryConvert n s).isSome)]

/-- The steps of a link (R410, R411, R415, R416). -/
def linkMove (s : State) (l : Fin 12) : Option Instr :=
  let x := linkOf s l.val
  pick ([(.deadTimeEnd l, (tryDeadTimeEnd l.val s).isSome), (.turnService l, (tryTurnService l.val s).isSome)]
    ++ [true, false].flatMap (fun b =>
      [(.replayRequest l b, (tryReplay l.val b s).isSome), (.flit l b true, (tryFlit l.val b true s).isSome),
       (.linkAck l b, (tryLinkAck l.val b s).isSome), (.linkAckTimer l b, (tryAckTimer l.val b s).isSome)]
      ++ (List.finRange 4).map (fun v => (.linkCredit l b v, vget (dirOf x b).freed v.val 0 != 0))))

/-- The steps of a job at the lightship (R436 to R438, R445). -/
def jobMove (s : State) (i : Fin 4) : Option Instr :=
  pick ([(.winsetComplete i, (tryWinsetComplete i s).isSome), (.windowCommit i, (tryWindowCommit i s).isSome)]
    ++ (match vget s.ls.jobs i.val none with
        | some j => j.boot.flatMap (fun e => e.2.map (fun c =>
            (.doneWord (BitVec.ofNat 16 e.1) (BitVec.ofNat 16 c), (tryDoneWord e.1 c s).isSome)))
        | none => []))

/-- The ports of a router. -/
def allPorts : List Port := [.north, .east, .south, .west, .loc, .lightship]

/-- The steps of a node (R374 to R380). -/
def nodeMove (s : State) (n : NetNode) : Option Instr :=
  let k := nodeKey n
  pick (allPorts.map (fun p => (.creditReturn n p, (routerOf s k).returns.any (fun q =>
          decide (q.1 ≤ s.cycle) && q.2 / 4 == portNum p)))
    ++ allPorts.flatMap (fun p => (List.finRange 4).flatMap (fun v =>
        [(.promotion n p v, (tryPromotion k (portNum p) v.val s).isSome),
         (.escape n p v, (tryEscape k (portNum p) v.val s).isSome)]))
    ++ allPorts.map (fun p => (.cellForward n p, (cellForward n p s).isSome)))

/-- The steps by which units begin something on the state at the start of the clk; what the lightship has to finish or to serve
comes last. -/
def startMove (s : State) : Option Sched :=
  match ((liveEngines s).findSome? (engineStarts s)).or <|
    ((liveLenses s).findSome? (lensStarts s)).or <|
    ((s.servers.map Prod.fst).findSome? (fun v => serverMove s (Fin.ofNat 32 v))).or <|
    ((s.links.map Prod.fst).findSome? (fun l => linkMove s (Fin.ofNat 12 l))).or
    ((List.finRange 4).findSome? (jobMove s)) with
  | some i => some (.event i)
  | none =>
    if (tryServe s).isSome then some .serve
    else ((liveTiles s).find? (fun r => (tryStation r s).isSome)).map Sched.station

/-- The flash delivery of a tile at the boundary at which this clk begins (R77, R298). -/
def flashMove (s : State) (r : TileId) : Option Instr :=
  let t := tileOf s r.val
  if !tileHeld s.cycle t && (readyFlash t).isSome then some (.flashDelivery r) else none

/-- What belongs to the boundary at which a clk begins: results of the beacon network, the advance of window generations (R437),
and flash deliveries, which so come before the drain dispatches of the clk (R298). -/
def boundaryMove (s : State) : Option Instr :=
  ((beaconDue s).or
    ((List.finRange 4).findSome? (fun i => pick [(.generationAdvance i, (tryGenerationAdvance i s).isSome)]))).or
  ((liveTiles s).findSome? (flashMove s))

/-- A lens that has a row operation to choose for the clk (R353): the dispatch of a DRAIN is made at once (R328). -/
def rowMove (s : State) : Option Sched := ((liveLenses s).find? (fun c => (rowTurnAt c s).isSome)).map Sched.rowTurn

/-- Whether the lamps of a tile have operations or blocks on their way. -/
def lampsBusy (t : Tile) : Bool :=
  !t.lstarts.isEmpty || t.act.lamps.toList.any (fun x => !x.flight.isEmpty || x.fetched.isSome)

/-- Whether the accesses and results of a lamp change anything in this clk: a lamp or an LSTART then holds something less. -/
def quietTurn (s : State) (r : TileId) (l : Fin 16) : Bool :=
  lampsBusy (tileOf s r.val)
    && (let a := tileOf (deliverTurn r l s) r.val
        let b := tileOf (settle r s) r.val
        a.act.lamps != b.act.lamps || a.lstarts != b.lstarts)

/-- The step of one lamp in this clk (R74 to R84, R93), on the state with the freezes of the clk. -/
def lampStep (s s1 : State) (r : TileId) (go : List Nat) (l : Fin 16) : Option Instr :=
  let t := tileOf s1 r.val
  let x := lampAt t l.val
  let due := lampDue s.cycle t l.val && !frozen t l.val
  pick [(.requestGrant r, (nextGrant s r.val).any (fun q => q.lamp == l)),
        (.lampBundle r l, due && x.issuing),
        (.linkStallRelease r l, due && x.st == .blocked && go.contains l.val),
        (.resultDelivery r l, quietTurn s r l)]

/-- The next lamp step of a tile in this clk, lowest lamp first, and its rollback (R222); the freezes of the clk last, where no
lamp's step has asserted them. -/
def lampMove (s : State) (r : TileId) : Option Instr :=
  let t := tileOf s r.val
  if t.duplex = .follower then none
  else if t.mismatch then pick [(.duplexRollback r, rollbackReady t)]
  else if tileHeld s.cycle t then
    (List.finRange 16).findSome? (fun l => pick [(.resultDelivery r l, lampFlushes t l.val && quietTurn s r l)])
  else
    let s1 := settle r s
    let go := (clkPlan s1 r).1
    (pick [(.lstartFirstBundle r, t.lstarts.any (startReady s.cycle (tileOf s1 r.val)))]).or <|
      ((List.finRange 16).findSome? (lampStep s s1 r go)).or
      (if (tileOf s1 r.val).freezes == t.freezes then none else some (if t.freezes.isEmpty then .resultDelivery r 0 else .freezeRelease r))

/-- The tiles whose keeper acts in this clk and has not yet, but for those in the built-in station handler. -/
def keeperTile (s : State) : Option TileId :=
  (liveTiles s).find? (fun r => (tileOf s r.val).keeper.late.isNone && !builtIn s (tileOf s r.val) && (keeperMoveIf regsReady { s with focus := r }).isSome)

/-- The tiles whose keeper has put off what it does, `loads` saying which. -/
def lateTile (s : State) (loads : Bool) : Option TileId :=
  (liveTiles s).find? (fun r => ((tileOf s r.val).keeper.late).any (fun i => !loads || isLoad i))

/-- The packets that have arrived (R273). -/
def arrivalMove (s : State) : Option Instr :=
  (liveEngines s).findSome? (fun e =>
    ((msgOf s e).inbox.head?.filter (fun p => decide (p.1 ≤ s.cycle))).map (fun p => arrivalOf e p.2))

/-- The steps by which units end something in this clk. -/
def endMove (s : State) : Option Instr :=
  ((liveTiles s).findSome? (fun r => pick [(.copyComplete r, (tryCopyComplete r s).isSome)])).or <|
    ((liveLenses s).findSome? (lensEnds s)).or <|
    ((List.range s.domains.length).findSome? (domainEnds s)).or <|
    ((liveNodes s).findSome? (fun n => if nodeBusy s (nodeKey n) then nodeMove s n else none)).or
    ((List.finRange 4).findSome? (fun i => pick [(.oldTableRelease i, (tryOldTableRelease i s).isSome)]))

/-- The tiles whose engines have their turn at the banks (R204). -/
def banksMove (s : State) : Option Sched :=
  ((liveTiles s).find? (fun r => banksDue s r.val)).map Sched.banks

/-- What is to be done in a phase of the clk: 0 beacon results and flash deliveries, 1 the keepers choose, 2 units begin
something, 3 row operations are chosen, 4 lamps, 5 keeper loads, 6 arrivals, 7 engines at the banks, 8 units end something, 9 the
keepers' effects on other units. -/
def phaseMove (s : State) (n : Nat) : Option Sched :=
  match n with
  | 0 => (boundaryMove s).map Sched.event
  | 1 => (keeperTile s).map Sched.choose
  | 2 => startMove s
  | 3 => rowMove s
  | 4 => ((liveTiles s).findSome? (lampMove s)).map Sched.event
  | 5 => (lateTile s true).map Sched.keeper
  | 6 => (arrivalMove s).map Sched.event
  | 7 => banksMove s
  | 8 => (endMove s).map Sched.event
  | _ => (lateTile s false).map Sched.keeper

/-- What moves next where the agenda leaves it open, with the phase it belongs to: `phase` holds how far the clk has got, so that
an effect of this clk is taken up by other units in the next (R499). -/
def nextMove (s : State) : Sched × Nat :=
  (((List.range 10).drop s.phase).findSome? (fun n => (phaseMove s n).map (fun x => (x, n)))).getD (.clk 1, 9)

/-- The step that a clk may not pass over, with its phase: lamps are timed to the clk (R76, R83), and so are the accesses of the
engines (R204); what a keeper has put off belongs to it. -/
def urgentMove (s : State) : Option (Sched × Nat) :=
  ([0, 4, 7, 9].filter (fun n => decide (s.phase ≤ n))).findSome? (fun n =>
    (if n = 0 then ((liveTiles s).findSome? (flashMove s)).map Sched.event else phaseMove s n).map (fun x => (x, n)))

/-! ## Placing an instruction (the interface) -/

/-- A state whose next step is the keeper of tile 0 at its PC, with the bytes of a word there. -/
def placeWord (s : State) (bs : List Byte) : State :=
  { modTile s 0 (fun t => { t with
      sram := Mem.writeN t.sram t.keeper.pc.toNat bs,
      keeper := { t.keeper with started := true, halted := false, debugHalt := false, waiting := none, late := none } })
    with agenda := [.keeper 0] }

end Sys2Proof.Machine
end

