-- ==== Sys2Proof/Machine/Boundary.lean ====
section
/-! DEFINITION. The choice at an instruction boundary between an asynchronous trap that is due and the synchronous trap of the
next instruction (R218), and what a keeper puts off to the end of its clk, where other units see it from the next clk on (R499; log
entry 2). -/

namespace Sys2Proof.Machine

/-- Whether a tile has entered a trap: in_trap or the station level is newly set. -/
def trapEntered (old new : Tile) : Bool :=
  (!old.keeper.inTrap && new.keeper.inTrap) || (!old.keeper.station && new.keeper.station)

/-- Whether an instruction of the keeper in focus would raise a synchronous trap now. -/
def raises (i : Instr) (s : State) : Bool :=
  match exec i s with
  | .next s' => trapEntered (cur s) (tileOf s' s.focus.val)
  | _ => false

/-- The choice of R218 at the keeper of the tile in focus, `may` saying which instruction can issue: DEBUG first, then the
synchronous trap of the next instruction, then the other asynchronous traps. -/
def keeperIssueIf (may : State → Instr → Bool) (s : State) : Option Instr :=
  let t := cur s
  match keeperMoveIf may s with
  | some .takeTrap =>
    if (dueTrap t).any (fun x => x.1 != 11) && !t.keeper.halted && t.keeper.waiting.isNone && may s (fetched s)
        && raises (fetched s) s then
      some (fetched s)
    else some .takeTrap
  | x => x

/-- What the keeper of the tile in focus does in this clk (R218). -/
def keeperIssue (s : State) : Option Instr := keeperIssueIf mayIssue s

/-! ## Effects at the end of the clk (R499) -/

/-- Whether an instruction takes effect on this state: it neither traps nor waits. -/
def takesEffect (i : Instr) (s : State) : Bool :=
  match exec i s with
  | .next s' => i == .takeTrap || (!trapEntered (cur s) (tileOf s' s.focus.val) && (tileOf s' s.focus.val).keeper.waiting.isNone)
  | _ => false

/-- Change the keeper in focus. -/
def setLate (i : Option Instr) (s : State) : State := modCur s (fun t => { t with keeper := { t.keeper with late := i } })

/-- The keeper of a tile chooses what it does in this clk, on the state at the start of the clk: what has no effect on other units
before the next clk, or none at all, it does now (R499). -/
def chooseStep (r : TileId) (s : State) : Out :=
  let s := { s with focus := r }
  match keeperIssueIf regsReady s with
  | none => .next s
  | some i => if putsOff s i && takesEffect i s then .next (setLate (some i) s) else exec i s

/-- LSTART as issued on the state at the start of the clk: the targets that have changed their state in the clk are left as they
are (R299, R499). -/
def keepMoved (mask : W64) (s s' : State) : State :=
  modCur s' (fun t => (maskLamps mask).foldl (fun t l =>
    let x := lampAt (cur s) l
    if x.st = x.seen then t else dropStart l (setLamp l x t)) t)

/-- MATCHLOG after a write of `v` on its value `seen` at the start of the clk, where the message engine has brought it to `now` in the
same clk: what the engine did is applied after the write (R237, R280, R281). -/
def mergeLog (seen now v : W64) : W64 :=
  let size := 2 ^ fld seen 40 5
  let d := (fld now 48 16 + size - fld seen 48 16 % size) % size
  let v := if d = 0 then v else putFld v 48 16 ((fld v 48 16 + d) % 2 ^ fld v 40 5)
  let v := if fld seen 0 2 = 1 ∧ d ≠ 0 ∧ size ≤ fld seen 48 16 + d then putBit v 2 true else v
  if fld seen 0 2 = 2 ∧ fld now 0 2 = 0 then putFld v 0 2 0 else v

/-- CHECKMODE after a write, with the lamp breaches of the clk counted after it (R215, R237). -/
def mergeCheck (seen now v : W64) : W64 :=
  putFld v 32 16 (Nat.min (fld v 32 16 + (fld now 32 16 - fld seen 32 16)) 0xFFFF)

/-- A write of a control register at the end of its clk: it goes by the values at the start of the clk, and what other units have set
in the clk comes after it (R237, R499). -/
def lateWrite (i : Instr) (s : State) : Out :=
  let t := cur s
  match exec i (modCur s (fun t => { t with ctrl := { t.ctrl with matchlog := t.logSeen, checkmode := t.checkSeen } })) with
  | .next s' => .next (modCur s' (fun x => { x with ctrl := { x.ctrl with
      matchlog := mergeLog t.logSeen t.ctrl.matchlog x.ctrl.matchlog,
      checkmode := mergeCheck t.checkSeen t.ctrl.checkmode x.ctrl.checkmode } }))
  | x => x

/-- What a keeper has put off takes effect at the end of the clk; what it checked, it checked at its start (R499). -/
def lateRun (i : Instr) (s : State) : Out :=
  match i with
  | .lstart _ b => (match exec i s with
    | .next s' => .next (keepMoved (kreg s b &&& 0xFFFF) s s')
    | x => x)
  | .lgroup _ _ =>
    let t := cur s
    (match exec i (modCur s (fun t => { t with loanQ := [], takeQ := [] })) with
     | .next s' => .next (modCur s' (fun x => { x with loanQ := t.loanQ, takeQ := t.takeQ }))
     | x => x)
  | .crw _ _ | .crs _ _ | .crc _ _ => lateWrite i s
  | _ => exec i s

end Sys2Proof.Machine
end

