-- ==== Sys2Proof/Machine/Step.lean ====
section
/-! DEFINITION. One step of the package: what the agenda names, or else what is due (log entry 2). -/

namespace Sys2Proof.Machine

/-- The keeper of a tile does what it has put off to the end of this clk, where its access finds its bank free (R204, R499); or it
issues (R198). None where it stands in this clk. -/
def keeperTurn (r : TileId) (s : State) : Option Out :=
  let s := { s with focus := r }
  match (cur s).keeper.late with
  | some i =>
    let s := setLate none s
    some (if mayIssue s i then lateRun i s else .next s)
  | none => (keeperIssue s).map (fun i => exec i s)

/-- The urgent step of a clk that is to pass. -/
def urgentOut (x : Sched) (s : State) : Out :=
  match x with
  | .event i => exec i s
  | .keeper r => (keeperTurn r s).getD (.next s)
  | _ => .next s

/-- A clk passes, unless something is to be done in it first, after which `back` is tried again. -/
def passClk (back : Sched) (k : State → State) (s : State) : Out :=
  match urgentMove s with
  | some (x, n) => urgentOut x { s with phase := n, agenda := back :: s.agenda }
  | none => .next (clkStep (k s))

/-- A result of a job becomes what the device may have made of it after the job has broken an obligation (R1; log entry 8): what other
jobs, the station firmware and the lightship hold is out of its reach. -/
def spoilAt (r : TileId) (x : Spoil) (s : State) : State :=
  let t := tileOf s r.val
  if (jobById s (jobOf t)).isNone then s
  else match x with
    | .sram a v => if a / 16 * 16 + 16 ≤ jobLimit t then modTile s r.val (fun t => { t with sram := Mem.setGranule t.sram (a / 16 * 16) v }) else s
    | .reg k v => if k = 0 ∨ t.keeper.station then s else modTile s r.val (fun t => { t with keeper := t.keeper.put k v })
    | .slot n v =>
      if (savedBlocks t.act).contains (n / 8) then modTile s r.val (fun t => { t with ws := SMap.insert t.ws n v }) else s
    | .acc row word v =>
      if word < 64 ∧ bankMine (bankOfRow s (clusterOf r.val) row) (posOf r.val) then putAccWords (clusterOf r.val) row word [v] s else s

/-- One entry of the agenda. Lamps that are due in a clk go before it passes. -/
def schedStep (x : Sched) (s : State) : Out :=
  match x with
  | .event i => exec i s
  | .keeper r => (keeperTurn r s).getD (passClk (.keeper r) id { s with focus := r })
  | .choose r => chooseStep r s
  | .clk 0 => .next s
  | .clk (n + 1) => passClk (.clk (n + 1)) (fun s => { s with agenda := if n = 0 then s.agenda else .clk n :: s.agenda }) s
  | .softError r st a unc => .next (softErrorAt r st a unc s)
  | .mismatch r => .next (mismatchAt r s)
  | .accPort r => .next (accPortAt r.val s)
  | .slowMsg r n => .next (modTile s r.val (fun t => { t with slow := n :: t.slow }))
  | .banks r => .next (banksTurn r.val s)
  | .rowTurn c => .next (orStay s (rowTurnAt c s))
  | .copyRead r a => .next (copyReadAt r.val a s)
  | .copyWrite r a => .next (copyWriteAt r.val a s)
  | .lensRead c i a => .next (lensReadAt c i a s)
  | .sendRead r n a => .next (sendReadAt r.val n a s)
  | .hurry v i => .next (hurryReq v.val i s)
  | .serve => .next (orStay s (tryServe s))
  | .station r => .next (orStay s (tryStation r s))
  | .cellError n => .next (cellErrorAt n s)
  | .selfCheck r => .next (selfCheckAt r s)
  | .spoil r x => .next (spoilAt r x s)

/-- One step. -/
def step (s : State) : Out :=
  match s.agenda with
  | x :: rest => schedStep x { s with agenda := rest }
  | [] => schedStep (nextMove s).1 { s with phase := (nextMove s).2 }

/-- The instruction of some table bits stored where the next step fetches it: at the PC of tile 0, whose keeper is next. The
words of a keeper instruction are 32 bits (R225); bits above `nbits` are 0. -/
def State.withFetchWord (s : State) (nbits w : Nat) : State := placeWord s (wordBytes (BitVec.ofNat 32 (w % 2 ^ nbits)))

end Sys2Proof.Machine
end

