-- ==== Sys2Proof/Safety.lean ====
section
/-! DEFINITION. What counts as a well-formed package and a safe run, in the terms of the claims. -/

namespace Sys2Proof.Machine

/-- The memory of the HBM stacks is in canonical form (R422; log entry 1). -/
def State.HbmWf (s : State) : Prop := Mem.wf s.hbm = true

/-- The SRAM of every tile is in canonical form (R203; log entry 1). -/
def State.SramWf (s : State) : Prop := ∀ r, Mem.wf (tileOf s r).sram = true

/-- A step does not stop: the outcome is a next state. -/
def Continues (o : Out) : Prop := ∃ s, o = .next s

/-- A run of `n` steps that does not stop. -/
def SafeRun (n : Nat) (s : State) : Prop := Continues (Sys2Proof.core.run n s)

end Sys2Proof.Machine

namespace Sys2Proof.Claims

open Sys2Proof.Machine

/-! ## What a keeper instruction leaves behind -/

/-- The next state of a keeper instruction that changes its own tile alone. `f` is the tile afterwards. -/
def TileNext (s : State) (o : Out) (P : Tile → Prop) : Prop :=
  ∃ t : Tile, o = .next (setTile s s.focus.val t) ∧ P t

/-- What no keeper instruction of the plain families touches: the tile but for its keeper. -/
def KeeperOnly (s : State) (t : Tile) : Prop := t = { cur s with keeper := t.keeper }

/-- The keeper's level, in_trap and running bits are as before, and no instruction of it waits. -/
def SameMode (k k' : Keeper) : Prop :=
  k'.station = k.station ∧ k'.inTrap = k.inTrap ∧ k'.started = k.started ∧ k'.halted = k.halted ∧ k'.waiting = none

/-- Every keeper register but `d` is as before, `d` reads `v` from `lat` clk later on, or from when an earlier writer of it
delivers if that is later, and k0 reads as zero still (R198, R229). -/
def RegWritten (s : State) (k' : Keeper) (d : BitVec 5) (v : W64) (lat : Nat) : Prop :=
  (∀ x, k'.get x = if x = d ∧ d ≠ 0 then v else (cur s).keeper.get x) ∧
  (d ≠ 0 → vget k'.regReady d.toNat 0 = Nat.max (vget (cur s).keeper.regReady d.toNat 0) (s.cycle + lat)) ∧
  (∀ n, n ≠ d.toNat → vget k'.regReady n 0 = vget (cur s).keeper.regReady n 0)

/-- An instruction that writes kd and nothing else, and whose successor is the next word (R198, R229, R231, R232). -/
def WritesReg (s : State) (o : Out) (d : BitVec 5) (v : W64) (lat : Nat) : Prop :=
  TileNext s o (fun t => KeeperOnly s t ∧ RegWritten s t.keeper d v lat ∧ SameMode (cur s).keeper t.keeper ∧
    t.keeper.pc = (cur s).keeper.pc + 4)

/-- Every keeper register is as before (R198). -/
def SameRegs (s : State) (k' : Keeper) : Prop := ∀ x, k'.get x = (cur s).keeper.get x

/-- The keeper writes no register and goes on at `pc`, issuing next at least `gap` clk later (R230). -/
def GoesTo (s : State) (k' : Keeper) (pc : W64) (gap : Nat) : Prop :=
  SameRegs s k' ∧ SameMode (cur s).keeper k' ∧ k'.pc = pc ∧ s.cycle + gap ≤ k'.issueAt

/-- An instruction without any effect but that its successor is next. -/
def OnlyAdvances (s : State) (o : Out) : Prop :=
  TileNext s o (fun t => KeeperOnly s t ∧ GoesTo s t.keeper ((cur s).keeper.pc + 4) 1)

/-- The keeper waits at its instruction, which is tried again in the next clk (R240, R243). -/
def Waits (s : State) (o : Out) (i : Instr) : Prop :=
  TileNext s o (fun t => t = { cur s with keeper := { (cur s).keeper with waiting := some i, issueAt := s.cycle + 1 } })

/-! ## Taking a trap (R218, R219) -/

/-- Whether a synchronous trap of a tile goes to station level (R219). -/
def ToStation (t : Tile) : Prop :=
  t.keeper.station = true ∨ t.keeper.inTrap = true ∨ bit t.ctrl.trapvec 0 = false

/-- The fields of a TRAPCAUSE word (R218). -/
def CauseIs (w : W64) (async : Bool) (cause agent tok : Nat) : Prop :=
  fld w 0 4 = cause ∧ fld w 8 5 = agent ∧ fld w 16 6 = tok ∧ bit w 31 = async

/-- The keeper has taken a trap to job level (R219): the saved registers of that level, in_trap, and the handler at TRAPVEC. -/
def TrappedToJob (old t : Tile) (async : Bool) (cause : Nat) (val resume : W64) (agent tok : Nat) : Prop :=
  t.keeper.inTrap = true ∧ t.keeper.station = false ∧ t.keeper.pc = old.ctrl.trapvec &&& maskBits 2 19 ∧
  t.ctrl = { old.ctrl with trapcause := t.ctrl.trapcause, trappc := resume, trapval := val } ∧
  CauseIs t.ctrl.trapcause async cause agent tok

/-- The keeper has taken a trap to station level (R219): the station copies, and the handler at 0x1F_0000. -/
def TrappedToStation (old t : Tile) (async : Bool) (cause : Nat) (val resume : W64) (agent tok : Nat) : Prop :=
  t.keeper.inTrap = old.keeper.inTrap ∧ t.keeper.station = true ∧ t.keeper.pc = 0x1F0000 ∧
  t.ctrl = { old.ctrl with strapcause := t.ctrl.strapcause, strappc := resume, strapval := val } ∧
  CauseIs t.ctrl.strapcause async cause agent tok ∧ bit t.ctrl.strapcause 29 = old.keeper.station

/-- A synchronous trap of the issuing instruction (R218, R219), entered 3 clk later (R230): it changes the keeper and the
trap registers of the level it goes to, writes no register, and outside the tile at most the lightship's record of done
words (R445). -/
def TrapsSync (s : State) (o : Out) (cause : Nat) (val : W64) (agent tok : Nat) : Prop :=
  ∃ (t : Tile) (ls : Lightship), o = .next { setTile s s.focus.val t with ls := ls } ∧
    t = { cur s with keeper := t.keeper, ctrl := t.ctrl } ∧ t.keeper.k = (cur s).keeper.k ∧
    t.keeper.issueAt = s.cycle + 3 ∧ t.keeper.waiting = none ∧
    (ToStation (cur s) → TrappedToStation (cur s) t false cause val (cur s).keeper.pc agent tok) ∧
    (¬ ToStation (cur s) → TrappedToJob (cur s) t false cause val (cur s).keeper.pc agent tok ∧ ls = s.ls)

/-! ## Accesses of the keeper to SRAM (R203, R205, R215, R233, R234) -/

/-- The address an access of the keeper reaches: through the skew mapping, or as computed (R205, R233). -/
def accessAt (s : State) (skew : Bool) (a : Nat) : Nat := if skew then skewMap (cur s) a else a

/-- Nothing turns an access of `n` bytes away: in the range of the level, aligned, no breach of a command in flight (R215,
R234). -/
def AccessOk (s : State) (a n : Nat) (store skew : Bool) : Prop :=
  inBounds (cur s) (cur s).keeper.station a n = true ∧ a % n = 0 ∧
    breach s s.focus.val (accessAt s skew a) n store = none

/-- The tile but for its keeper and the record of the banks used in this clk (R204). -/
def KeeperAndBanks (s : State) (t : Tile) : Prop :=
  t = { cur s with keeper := t.keeper, bankClk := t.bankClk, banksUsed := t.banksUsed }

/-- A load into kd (R229, R233). -/
def Loads (s : State) (o : Out) (d : BitVec 5) (v : W64) : Prop :=
  TileNext s o (fun t => KeeperAndBanks s t ∧ RegWritten s t.keeper d v 5 ∧ SameMode (cur s).keeper t.keeper ∧
    t.keeper.pc = (cur s).keeper.pc + 4)

/-- A store of the low `n` bytes of `v` at `a` (R233): those bytes and no other; what else may change is the record of banks
and, in a tile with an open checkpoint, the undo log, which stands in SRAM from 0x1D_3000 on, and its event (R221, R222). -/
def Stores (s : State) (o : Out) (a n : Nat) (v : W64) : Prop :=
  TileNext s o (fun t =>
    t = { cur s with keeper := t.keeper, bankClk := t.bankClk, banksUsed := t.banksUsed, sram := t.sram, ckpt := t.ckpt,
                     ctrl := t.ctrl } ∧
    t.ctrl = { (cur s).ctrl with events := t.ctrl.events } ∧
    ((cur s).ckpt = none → t.ckpt = none ∧ t.ctrl = (cur s).ctrl) ∧
    (∀ i, i < n → Mem.read t.sram (a + i) = v.extractLsb' (8 * i) 8) ∧
    (∀ x, (x < a ∨ a + n ≤ x) → ((cur s).ckpt = none ∨ x < 0x1D3000 ∨ 0x1F0000 ≤ x) →
      Mem.read t.sram x = Mem.read (cur s).sram x) ∧
    GoesTo s t.keeper ((cur s).keeper.pc + 4) 1)


/-! ## Control registers (R201, R236, R237) -/

/-- The tile but for its keeper and its control registers. -/
def KeeperAndCtrl (s : State) (t : Tile) : Prop := t = { cur s with keeper := t.keeper, ctrl := t.ctrl }

/-- What a read of each control register but those of `ns` shows is as before. -/
def OtherRegs (s : State) (t : Tile) (ns : List Nat) : Prop :=
  ∀ m, m ∉ ns → crRead s.cycle t m = crRead s.cycle (cur s) m

/-- A register that a write stores whole but for its reserved bits: its number, the bits it has, and whether a job may write
it only with CAPS.protreg (R201). -/
def plainRegs : List (Nat × W64 × Bool) :=
  [(0x005, BitVec.allOnes 64, false), (0x008, maskBits 2 19 ||| 1, false), (0x00A, maskBits 2 19, false),
   (0x00B, BitVec.allOnes 64, false), (0x011, maskBits 10 11 ||| 1, false), (0x012, maskBits 16 11 ||| maskBits 0 4, false),
   (0x014, maskBits 32 16 ||| maskBits 0 2, false), (0x015, 1, false), (0x01A, maskBits 62 2 ||| maskBits 0 21, false),
   (0x01B, maskBits 62 2 ||| maskBits 0 21, false), (0x01C, maskBits 0 4, false), (0x01D, maskBits 0 2, false),
   (0x02C, maskBits 0 48, true)]

/-- A register write by the keeper that stores `v`, the next instruction following (R236). -/
def RegStored (s : State) (o : Out) (n : Nat) (v : W64) : Prop :=
  TileNext s o (fun t => KeeperAndCtrl s t ∧ crRead s.cycle t n = v ∧ OtherRegs s t [n] ∧
    GoesTo s t.keeper ((cur s).keeper.pc + 4) 1)

/-- A register row by itself: the register then reads `v`, and the keeper is as before. -/
def RegSet (s : State) (o : Out) (n : Nat) (v : W64) : Prop :=
  TileNext s o (fun t => t = { cur s with ctrl := t.ctrl } ∧ crRead s.cycle t n = v ∧ OtherRegs s t [n])

/-! ## Engine commands (R208, R211, R242) -/

/-- The copy and spill instructions with their opcode and sub (R284, R305). -/
def copyRows (t : Tok) (k : BitVec 5) (m n : Tok) (y x c : BitVec 1) : List (Instr × BitVec 7 × BitVec 2) :=
  [(.cpMove t k m n y x, 0x40, y ++ x), (.cpGather t k m n, 0x41, 0), (.cpScatter t k m n, 0x42, 0),
   (.cpPlane t k m n, 0x43, 0), (.cpUnplane t k m n, 0x44, 0), (.cpPx8Enc t k m n, 0x45, 0), (.cpPx8Dec t k m n, 0x45, 1),
   (.cpPx8Bf16 t k m n, 0x45, 2), (.cpPx8Encbf t k m n, 0x45, 3), (.cpCvt t k m n, 0x46, 0),
   (.cpAcc t k m n c, 0x47, c.zeroExtend 2), (.cpTopk t k m n c, 0x48, c.zeroExtend 2), (.cpFill t k m n, 0x49, 0),
   (.lspillOut t k m n, 0x58, 0), (.lspillIn t k m n, 0x58, 1)]

/-- The KC lens instructions (R339). -/
def lensRows (t : Tok) (k : BitVec 5) (m n : Tok) : List (Instr × BitVec 7 × BitVec 2) :=
  [(.lmm t k m n, 0x70, 0), (.lmms t k m n, 0x71, 0), (.lrank t k m n, 0x72, 0), (.accLoad t k m n, 0x73, 0),
   (.accClr t k m n, 0x74, 0), (.accMerge t k m n, 0x75, 0), (.drain t k m n, 0x76, 0), (.accFree t k m n, 0x77, 0),
   (.accOwn t k m n, 0x78, 0)]

/-- The message commands (R306). -/
def msgRows (t : Tok) (k : BitVec 5) (m n : Tok) : List (Instr × BitVec 7 × BitVec 2) :=
  [(.send t k m n, 0x60, 0), (.ssend t k m n, 0x61, 0), (.sendTree t k m n, 0x62, 0), (.recv t k m n, 0x63, 0),
   (.recvAdd t k m n, 0x64, 0), (.recvPx8 t k m n, 0x65, 0)]

/-- The issue of a command passes the checks of R242: room for the descriptor, the level and capability that the opcode needs
(R227), and an output token that no input repeats (R209). -/
def KcChecks (s : State) (op : BitVec 7) (t : Tok) (k : BitVec 5) (m n : Tok) : Prop :=
  k.toNat ≤ 28 ∧
    ((cur s).keeper.station = true ∨ (op ≠ 0x58 ∧ (op = 0x4C → bit (cur s).ctrl.caps 1 = true))) ∧
    (t = 0 ∨ (t ≠ m ∧ t ≠ n ∧ t ≠ (kreg s (k + 3)).extractLsb' 58 6))

/-- A command as the keeper's registers and modes hold it at issue (R48, R242, R318). -/
def CommandIs (s : State) (c : KCmd) (op : BitVec 7) (sub : BitVec 2) (t : Tok) (k : BitVec 5) (m n : Tok) : Prop :=
  c.op = op ∧ c.sub = sub ∧ c.d0 = kreg s k ∧ c.d1 = kreg s (k + 1) ∧ c.d2 = kreg s (k + 2) ∧ c.d3 = kreg s (k + 3) ∧
    c.tout = t ∧ c.tin0 = m ∧ c.tin1 = n ∧ c.tin2 = (kreg s (k + 3)).extractLsb' 58 6 ∧
    c.station = (cur s).keeper.station ∧ c.job = jobOf (cur s) ∧ c.rnd = (cur s).ctrl.rndmode ∧
    c.cvt = (cur s).ctrl.cvtmode ∧ c.fmta = (cur s).ctrl.fmta ∧ c.fmtb = (cur s).ctrl.fmtb ∧
    c.scla = (cur s).ctrl.scla ∧ c.sclb = (cur s).ctrl.sclb

/-- The count of the output token of the issuing level has gone up by one, and no other count has changed; t0 is not counted
(R208). -/
def TokenCounted (s : State) (t : Tile) (tout : Tok) : Prop :=
  ∀ (station : Bool) (n : Nat), n < 64 → tokCount t station n =
    tokCount (cur s) station n + (if station = (cur s).keeper.station ∧ n = tout.toNat ∧ n ≠ 0 then 1 else 0)

/-- The tile but for its keeper, its engine contexts, their token counts and queue entries, the order of issue and an open
checkpoint, which engine commands close (R222). -/
def KeeperAndEngines (s : State) (t : Tile) : Prop :=
  t = { cur s with keeper := t.keeper, eng := t.eng, stok := t.stok, stSlots := t.stSlots, stCopy := t.stCopy,
                   stLens := t.stLens, cmdStamp := t.cmdStamp, ckpt := t.ckpt }

/-- Whether two contexts agree but for token counts. -/
def SameButTokens (e e' : EngineCtx) : Prop := e' = { e with tok := e'.tok }

/-- A register is written and an open checkpoint closed (R222); the successor is next. -/
def WritesRegClosing (s : State) (o : Out) (d : BitVec 5) (v : W64) (lat : Nat) : Prop :=
  TileNext s o (fun t => t = { cur s with keeper := t.keeper, ckpt := none } ∧ RegWritten s t.keeper d v lat ∧
    SameMode (cur s).keeper t.keeper ∧ t.keeper.pc = (cur s).keeper.pc + 4)

/-! ## Beacons (R388 to R398) -/

/-- The collectives of a domain register: the instruction, its kind, its epoch and the value it contributes (R392, R394). -/
def collectiveRows (s : State) (d a b : BitVec 5) (x : BitVec 2) : List (Instr × Nat × BitVec 16 × W32) :=
  let e := (kreg s b).extractLsb' 0 16
  let v := (kreg s a).extractLsb' 0 32
  [(.voteAnd d a b x, 3, e, v), (.voteOr d a b x, 4, e, v), (.voteMax d a b x, 5, e, v), (.voteMin d a b x, 6, e, v),
   (.voteMaxs d a b x, 7, e, v), (.voteMins d a b x, 8, e, v), (.bar d a x, 1, (kreg s a).extractLsb' 0 16, 0)]

/-- The keeper stands at its instruction, registers as they were, and tiles other than its own are untouched. -/
def StandsAt (s t : State) (i : Instr) : Prop :=
  (cur t).keeper.waiting = some i ∧ (cur t).keeper.pc = (cur s).keeper.pc ∧ SameRegs s (cur t).keeper ∧
    t.focus = s.focus ∧ t.hbm = s.hbm ∧ t.lenses = s.lenses ∧ ∀ q, q ≠ s.focus.val → tileOf t q = tileOf s q

/-! ## Lamp operations (R76, R98, R115, R117 to R124) -/

/-- The operation goes into flight in its lamp (R76): `outs` reach the result ports (unit times 4 plus port) `lat` lamp clk
later with `flags`; nothing else of the package changes. -/
def Delivers (s : State) (o : Out) (unit lat : Nat) (outs : List (Nat × V128)) (flags : Nat) : Prop :=
  o = .next (modTile s s.bundle.tile.val (modLamp s.bundle.lamp.val (fun x =>
    { x with
      serial := x.serial + 1
      flight := x.flight ++ [{
        serial := x.serial, unit := unit, since := s.cycle
        due := s.cycle + lat * lampGap (tileOf s s.bundle.tile.val)
        ready := some (s.cycle + lat * lampGap (tileOf s s.bundle.tile.val))
        lat := lat, outs := outs, flags := BitVec.ofNat 32 flags, mem := false, access := none, left := [], counted := false }] })))

/-- One result on one port, without flags, of which `P` holds. -/
def DeliversOne (s : State) (o : Out) (unit lat port : Nat) (P : V128 → Prop) : Prop :=
  ∃ v, Delivers s o unit lat [(port, v)] 0 ∧ P v

/-- The move faults (R98): the lamp is FAULTED with the cause and the slot of the bundle, its fault bit is set, and its
results are held. -/
def FaultsLamp (s : State) (o : Out) (cause : Nat) : Prop :=
  ∃ t, o = .next t ∧
    (lampAt (tileOf t s.bundle.tile.val) s.bundle.lamp.val).st = .faulted ∧
    (lampAt (tileOf t s.bundle.tile.val) s.bundle.lamp.val).cause = BitVec.ofNat 4 cause ∧
    (lampAt (tileOf t s.bundle.tile.val) s.bundle.lamp.val).slot = s.bundle.slot ∧
    bit (tileOf t s.bundle.tile.val).ctrl.events s.bundle.lamp.val = true ∧
    (lampAt (tileOf t s.bundle.tile.val) s.bundle.lamp.val).ports = (lampAt (tileOf s s.bundle.tile.val) s.bundle.lamp.val).ports ∧
    (tileOf t s.bundle.tile.val).sram = (tileOf s s.bundle.tile.val).sram ∧
    (tileOf t s.bundle.tile.val).ws = (tileOf s s.bundle.tile.val).ws ∧
    (∀ q, q ≠ s.bundle.tile.val → tileOf t q = tileOf s q) ∧ t.lenses = s.lenses ∧ t.hbm = s.hbm

/-- An access of `ls` whose banks are free goes into flight performed (R104, R174): it is due `lat` lamp clk later, and what
the lamp had in flight stays. Nothing but its tile and lens changes; the workspace, the keeper's registers and the result
ports do not. -/
def Accesses (s : State) (o : Out) (lat : Nat) (P : State → InFlight → Prop) : Prop :=
  ∃ t e, o = .next t ∧
    (let r := s.bundle.tile.val
     let x := lampAt (tileOf s r) s.bundle.lamp.val
     let y := lampAt (tileOf t r) s.bundle.lamp.val
     e ∈ y.flight ∧ e.unit = 5 ∧ e.due = s.cycle + lat * lampGap (tileOf s r) ∧ e.access = none ∧
     (∀ p ∈ x.flight, p.serial ≠ x.serial → p ∈ y.flight) ∧ y.ports = x.ports ∧ y.st = x.st ∧
     (tileOf t r).ws = (tileOf s r).ws ∧ (tileOf t r).keeper.k = (tileOf s r).keeper.k ∧
     (∀ q, q ≠ r → tileOf t q = tileOf s q) ∧ t.hbm = s.hbm) ∧
    P t e

/-- Every lane of width `n` of `v` is `f` of the lanes of `x` and `y` (R135). -/
def Lanes (n : Nat) (f : BitVec n → BitVec n → BitVec n) (x y v : V128) : Prop :=
  ∀ i, i < 128 / n → lane v n i = f (lane x n i) (lane y n i)

/-! ## Events of a tile -/

/-- Nothing holds the lamps of a tile as a whole (R99, R222, R304, R458). -/
def TileRuns (s : State) (t : Tile) : Prop :=
  t.keeper.debugHalt = false ∧ t.lampsStopped = false ∧ t.mismatch = false ∧ t.lswapUntil ≤ s.cycle

/-- No lamp of a tile waits for a block that is being read (R79, R299). -/
def BlocksRead (t : Tile) : Prop :=
  (∀ m, m < 16 → (lampAt t m).fetched.all (fun b => b.todo.isEmpty) = true) ∧ ∀ z ∈ t.lstarts, z.todo = []

/-- Lamp `l` alone is active in its tile: nothing holds it, its next bundle is due, it is in no repetition, it has no
operation in flight, no LWRITE of the clk is hidden from it, and every other lamp is STOPPED with nothing in flight; no block is
being read and no request waits but its own. -/
def OneLamp (s : State) (t : Tile) (l : Nat) : Prop :=
  TileRuns s t ∧ t.freezes = [] ∧ t.badWs = [] ∧ (lampAt t l).paused = false ∧ (lampAt t l).nextAt ≤ s.cycle ∧ (lampAt t l).flight = [] ∧
    (lampAt t l).rep = none ∧ (lampAt t l).old = none ∧ BlocksRead t ∧ (∀ q ∈ requests t, q.lamp.val = l) ∧
    ∀ m, m < 16 → m ≠ l → (lampAt t m).st = .stopped ∧ (lampAt t m).flight = []

/-- SRAM is as before but for the undo log of an open checkpoint, which stands from 0x1D_3000 on (R221, R222). -/
def SramButLog (t u : Tile) : Prop :=
  (t.ckpt = none → u.sram = t.sram) ∧ ∀ x, (x < 0x1D3000 ∨ 0x1F0000 ≤ x) → Mem.read u.sram x = Mem.read t.sram x

/-- The value `v` of a source field of a lamp (R109, R110, R112): a register of a mapped bank, a predicate, the lane numbers,
the lamp's number, its group, a result port, a small immediate. -/
def SourceIs (t : Tile) (l src : Nat) (v : V128) : Prop :=
  (src < 0x20 ∧ vreg t l src = some v) ∨
  (0x20 ≤ src ∧ src < 0x28 ∧ v = if (lampAt t l).preds.getLsbD (src - 0x20) then BitVec.allOnes 128 else 0) ∨
  (src = 0x28 ∧ v = packLanes 32 [0, 1, 2, 3]) ∨
  (src = 0x29 ∧ v = bcast32 (BitVec.ofNat 32 l)) ∨
  (src = 0x2D ∧ v = bcast32 ((lampAt t l).group.zeroExtend 32)) ∨
  (src ∈ [0x40, 0x44, 0x45, 0x48, 0x4C, 0x50, 0x51, 0x52, 0x53, 0x54, 0x58] ∧ v = vget (lampAt t l).ports (src - 0x40) 0) ∨
  (0x80 ≤ src ∧ src < 0x180 ∧ v = bcast32 (BitVec.ofInt 32 ((src : Int) - 0x100)))

/-- An event of tile `r`: the next state differs in that tile, the latches of the last bundle and the counter of free values
alone. -/
def TileEvent (s : State) (r : Nat) (o : Out) (P : Tile → Prop) : Prop :=
  ∃ t, o = .next t ∧ P (tileOf t r) ∧ (∀ q, q ≠ r → tileOf t q = tileOf s q) ∧ t.lenses = s.lenses ∧ t.hbm = s.hbm ∧
    t.domains = s.domains ∧ t.ls = s.ls ∧ t.servers = s.servers

/-! ## Events of a lens and of the copy engine -/

/-- An event of lens `c` and tile `r`: nothing else of the package changes. -/
def LensEvent (s : State) (c r : Nat) (o : Out) (P : State → Prop) : Prop :=
  ∃ t, o = .next t ∧ P t ∧ (∀ d, d ≠ c → lensOf t d = lensOf s d) ∧ (∀ q, q ≠ r → tileOf t q = tileOf s q) ∧
    t.hbm = s.hbm ∧ t.domains = s.domains ∧ t.ls = s.ls ∧ t.servers = s.servers ∧ t.cycle = s.cycle

/-- The command at the head of the lens queue of a tile, of its job, that the engines may start (R210, R321, R452, R455). -/
def LensHeadIs (t : Tile) (k : KCmd) (rest : List KCmd) : Prop :=
  t.stLens = none ∧ t.keeper.debugHalt = false ∧ t.keeper.preempted = false ∧ t.parkSeen = false ∧ t.allocNew = none ∧
    t.eng.lensQ = k :: rest ∧ k.station = false ∧ inputsSet t k = true

/-- The tile with the rest of its lens queue. -/
def withLensQ (t : Tile) (rest : List KCmd) : Tile := { t with eng := { t.eng with lensQ := rest } }

/-- A command of the running job, whose context is not parked (R454). -/
def OwnCommand (t : Tile) (k : KCmd) : Prop := k.station = false ∧ k.job = jobOf t ∧ t.parked = none ∧ k.tout ≠ 0

/-- The counts of the running job with token `n` one lower (R208). -/
def tokensLess (t : Tile) (n : Tok) : Vector Nat 64 := vset t.eng.tok n.toNat (vget t.eng.tok n.toNat 0 - 1)

/-- A lens command of the running job has completed FAULT (R335 to R337): its token is one lower, its status word holds FAULT and
the counts, EVENTS.lensfault is set, and the first fault since the word was read stands in the lens fault word. -/
def LensFaulted (t u : Tile) (k : KCmd) (reason where_ skipped done : Nat) (ovf : Bool) : Prop :=
  u = { t with
        ctrl := { t.ctrl with events := t.ctrl.events ||| oneBit 33 }
        eng := { t.eng with
          tok := tokensLess t k.tout
          lensFault := u.eng.lensFault
          lensStatus := vset t.eng.lensStatus k.tout.toNat
            (BitVec.ofNat 64 (skipped % 2 ^ 24 * 2 ^ 32 + done % 2 ^ 24 * 2 ^ 8 + (if ovf then 16 else 0) + 15)) } } ∧
    (bit t.eng.lensFault 63 = false → u.eng.lensFault =
      BitVec.ofNat 64 (2 ^ 63 + k.tout.toNat * 2 ^ 56 + k.op.toNat * 2 ^ 49 + reason * 2 ^ 44 + where_ % 2 ^ 32))

/-- SRAM as the running copy command has read it: with the granules it read ahead of its end as they were then (R213). -/
def seenBy (t : Tile) (x : CopyRun) : Mem := (overlay x.early t).sram

/-- The byte at offset `o` of a packed list of items of `w` bits (R29). -/
def itemByte (w : Nat) (e : Nat → Nat) (o : Nat) : Byte :=
  if w = 4 then BitVec.ofNat 8 (e (2 * o) % 16 + 16 * (e (2 * o + 1) % 16))
  else BitVec.ofNat 8 (e (o * 8 / w) / 2 ^ (8 * (o % (w / 8))))

/-- The running copy command `x` of a tile without an open checkpoint completes (R208, R213, R283 to R285): each byte that `Is`
names stands at its address, but where the command had written the granule before, and no other byte changes; the token falls; where
`why` gives a reason and a place, the fault stands in its event and, if it is the first, in the fault word. What it writes lies
outside what it reads. -/
def CopyEnds (s : State) (r : TileId) (x : CopyRun) (reads : Nat → Prop) (Is : Nat → Byte → Prop) (why : Option (Nat × Nat))
    (P : State → Prop) : Prop :=
  let t := tileOf s r.val
  let k := x.cmd
  t.copyRun = some x → x.fail = none → x.doneAt ≤ s.cycle → t.keeper.debugHalt = false → t.freezes = [] → t.failing = [] →
  t.bad = [] → t.badWs = [] → (lensOf s (clusterOf r.val)).bad = [] → t.ckpt = none →
  (k.station = true ∨ (k.job = jobOf t ∧ t.parked = none)) →
  (∀ p ∈ x.early, p.1 % 16 = 0 ∧ ∀ a b, Is a b → a / 16 * 16 ≠ p.1) → (∀ a ∈ x.wrote, a % 16 = 0) →
  (∀ a b, Is a b → ¬ reads a) →
  ∃ v, exec (.copyComplete r) s = .next v ∧
    (let u := tileOf v r.val
     u.copyRun = none ∧ u.keeper = t.keeper ∧
     (∀ (station : Bool) (n : Nat), n < 64 → tokCount u station n =
       tokCount t station n - (if station = k.station ∧ n = k.tout.toNat ∧ n ≠ 0 then 1 else 0)) ∧
     u.eng = { t.eng with tok := u.eng.tok, copyFault := u.eng.copyFault } ∧
     (why = none → u.eng.copyFault = t.eng.copyFault ∧ u.ctrl = t.ctrl) ∧
     (∀ p, why = some p → u.ctrl = { t.ctrl with events := t.ctrl.events ||| oneBit 34 } ∧
       (bit t.eng.copyFault 63 = false → u.eng.copyFault =
         BitVec.ofNat 64 (2 ^ 63 + k.tout.toNat * 2 ^ 56 + k.op.toNat * 2 ^ 49 + p.1 * 2 ^ 44 + p.2 % 2 ^ 32))) ∧
     (∀ a b, Is a b → a / 16 * 16 ∉ x.wrote → Mem.read u.sram a = b) ∧
     ∀ a, ((∀ b, ¬ Is a b) ∨ a / 16 * 16 ∈ x.wrote) → Mem.read u.sram a = Mem.read t.sram a) ∧
    P v ∧ (∀ q, q ≠ r.val → tileOf v q = tileOf s q) ∧ (∀ d, d ≠ clusterOf r.val → lensOf v d = lensOf s d) ∧
    v.hbm = s.hbm ∧ v.domains = s.domains ∧ v.ls = s.ls ∧ v.servers = s.servers

/-- A copy command that touches neither lamps nor lens. -/
def PlainCopy (s : State) (r : TileId) (v : State) : Prop :=
  v.lenses = s.lenses ∧ (tileOf v r.val).ws = (tileOf s r.val).ws ∧ (tileOf v r.val).act = (tileOf s r.val).act ∧
    (tileOf v r.val).saved = (tileOf s r.val).saved ∧ (tileOf v r.val).free = (tileOf s r.val).free

/-! ## Events of a message engine (R252 to R281) -/

/-- The only request slot of a tile is slot `n`, of its job. -/
def OnlySlot (t : Tile) (n : Nat) (m : MSlot) : Prop :=
  n < 128 ∧ t.eng.slots = [(n, m)] ∧ t.stSlots = [] ∧ t.parked = none ∧ m.station = false ∧ m.job = jobOf t

/-- A packet stands at place `k` of a tile's inbox, due, of the tile's job. -/
def Arrives (s : State) (t : Tile) (k : Nat) (p : Packet) : Prop :=
  (∃ d, t.msg.inbox[k]? = some (d, p) ∧ d ≤ s.cycle) ∧ p.job = jobOf t

/-- The engine sends a packet: it leaves 3 clk later (R374). -/
def Sends (s : State) (t u : Tile) (ps : List Packet) : Prop := u.msg.outq = t.msg.outq ++ ps.map (fun p => (s.cycle + 3, p))

/-- The slot of the tile afterwards, and the rest of its engine context but for tokens. -/
def SlotIs (t u : Tile) (n : Nat) (P : MSlot → Prop) : Prop :=
  ∃ q, u.eng.slots = [(n, q)] ∧ P q ∧ u.eng = { t.eng with slots := u.eng.slots, tok := u.eng.tok } ∧
    u.stSlots = t.stSlots ∧ u.keeper = t.keeper ∧ u.act = t.act ∧ u.ws = t.ws

/-- A slot has completed: its status, its lengths, and its token one lower (R208, R253, R254). -/
def SlotEnds (t u : Tile) (n : Nat) (tout : Tok) (status : BitVec 4) (msgLen dlvLen : Nat) : Prop :=
  SlotIs t u n (fun q => q.st = .complete ∧ q.status = status ∧ q.msgLen = msgLen ∧ q.dlvLen = dlvLen) ∧
    u.eng.tok = if tout = 0 then t.eng.tok else tokensLess t tout

/-- Whether place `i` of a list of accesses finds its bank free in a clk: granted to none before, nor to an earlier one of the list
(R204). -/
def bankGrants (s : State) (t : Tile) (ps : List Piece) (i : Nat) : Bool :=
  (ps[i]?).any (fun p => !bankBusy s t p.addr && !(ps.take i).any (fun q => sramBank q.addr == sramBank p.addr))

/-- The accesses of a list that a clk leaves waiting. -/
def piecesLeft (s : State) (t : Tile) (ps : List Piece) : List Piece :=
  (ps.zipIdx.filter (fun q => !bankGrants s t ps q.2)).map Prod.fst

/-- Place `i` of a list of accesses is granted: it is this one. -/
def Granted (s : State) (t : Tile) (ps : List Piece) (p : Piece) : Prop := ∃ i, ps[i]? = some p ∧ bankGrants s t ps i = true

/-- The turn of the engines of tile `r` at its SRAM banks stands next, and slot `n` alone has accesses to make: each lies in one
granule, and none of them copies out of the pool (R204, R206). -/
def SlotAtBanks (s : State) (r : TileId) (n : Nat) (m : MSlot) : Prop :=
  let t := tileOf s r.val
  OnlySlot t n m ∧ (∃ rest, s.agenda = .banks r :: rest) ∧ t.msg.logs = [] ∧ (∀ h ∈ t.msg.hdrs, h.todo = []) ∧ t.copyRun = none ∧
    (∀ i, slotOf (lensOf s (clusterOf r.val)) i = none) ∧ t.keeper.late = none ∧ t.bad = [] ∧ n ∉ t.slow ∧ m.todo ≠ [] ∧
    ∀ p ∈ m.todo, p.src = none ∧ p.addr % 16 + p.bytes.length ≤ 16

/-! ## Events of the mesh and of the links (R371 to R421) -/

/-- The next state differs in routers, tile `r`'s engine and what `P` says alone; memory is as before. -/
def MeshEvent (s : State) (o : Out) (P : State → Prop) : Prop :=
  ∃ t, o = .next t ∧ P t ∧ t.hbm = s.hbm ∧ t.domains = s.domains ∧ t.lenses = s.lenses ∧ t.links = s.links ∧
    ∀ q, (tileOf t q).sram = (tileOf s q).sram ∧ (tileOf t q).keeper = (tileOf s q).keeper ∧ (tileOf t q).eng = (tileOf s q).eng

/-- An event of link `l`: no other link, tile, lens or memory changes. -/
def LinkEvent (s : State) (l : Nat) (o : Out) (P : State → Prop) : Prop :=
  ∃ t, o = .next t ∧ P t ∧ (∀ m, m ≠ l → linkOf t m = linkOf s m) ∧ t.tiles = s.tiles ∧ t.hbm = s.hbm ∧
    t.lenses = s.lenses ∧ t.domains = s.domains ∧ t.servers = s.servers

/-- One direction of the link is `d` afterwards and the rest of the link as before. -/
def DirIs (s t : State) (l : Nat) (toB : Bool) (d : LinkDir) : Prop := linkOf t l = setDir toB d (linkOf s l)

/-- A router without traffic but for one packet of one cell that stands at an input of a mesh direction (R371, R374). -/
def OneCell (s : State) (k key : Nat) (c : Cell) (p : Packet) : Prop :=
  let x := routerOf s k
  x.stopped = false ∧ x.inject = [] ∧ x.inBufs = [(key, [c])] ∧ x.route = [] ∧ x.heads = [] ∧ x.outs = [] ∧
    c.head = true ∧ c.tail = true ∧ c.pkt = some p ∧ c.at_ ≤ s.cycle ∧ key / 4 < 4 ∧ key % 4 = c.vc.val ∧
    p.escape = false ∧ p.tree = [] ∧ nodeOf p.dst = s.ls.node ∧ k % 256 ≠ 136 ∧ (msgOf s k).outq = [] ∧ (msgOf s k).landing = []

/-! ## Events of domains, servers, the lightship and the ports -/

/-- The combination of the values of a vote by its operation (R392): AND, OR, the extremes unsigned and signed. -/
def VoteIs (op : Nat) (vs : List W32) (v : W32) : Prop :=
  (op = 0 → ∀ b, b < 32 → v.getLsbD b = vs.all (fun x => x.getLsbD b)) ∧
  (op = 1 → ∀ b, b < 32 → v.getLsbD b = vs.any (fun x => x.getLsbD b)) ∧
  (2 ≤ op → v ∈ vs) ∧
  (op = 2 → ∀ x ∈ vs, x.toNat ≤ v.toNat) ∧ (op = 3 → ∀ x ∈ vs, v.toNat ≤ x.toNat) ∧
  (op = 4 → ∀ x ∈ vs, x.toInt ≤ v.toInt) ∧ (op = 5 → ∀ x ∈ vs, v.toInt ≤ x.toInt)

/-- The arrived members of domain `x` find the result word `w` at their instance, from this clk on (R389, R390). -/
def GivesAll (s : State) (x y : Domain) (w : W64) : Prop :=
  ∀ a ∈ x.arrivals, ∀ p, partOf x a.tile.val 0 = some p →
    ∃ q, partOf y a.tile.val 0 = some q ∧ q = { p with result := some w, readyAt := s.cycle, phase := q.phase }

/-- The instance of domain `x` is over (R388). -/
def InstanceOver (x y : Domain) : Prop :=
  y = { x with epoch := x.epoch + 1, arrivals := [], kind := 0, commit := none, parts := y.parts }

/-- A unit's engine has one more send under way, of the bytes `bs`; a header of it has left or is due (R256, R424). -/
def SendsMessage (slots slots' : SMap MSlot) (dst : W32) (tag : BitVec 24) (group : BitVec 12) (job : BitVec 16)
    (bs : List Byte) : Prop :=
  ∃ n m, SMap.find slots n = none ∧ slots' = SMap.insert slots n m ∧ m.kind = .send ∧ m.peer = dst ∧ m.tag = tag ∧
    m.group = group ∧ m.job = job ∧ m.st = .header ∧ m.len = bs.length ∧ m.payload = bs

/-- The reply of the lightship to a request of a host (R446): status, reason and what follows, to the host's tag. -/
def Replies (s t : State) (host : W32) (tag : BitVec 24) (code reason : Nat) (bs : List Byte) : Prop :=
  SendsMessage s.ls.eng.slots t.ls.eng.slots host tag 0xFFE 0xFFFF (leBytes 8 (code + reason * 256) ++ bs)

/-- A request that does nothing but reply. -/
def OnlyReplies (s : State) (o : Out) (host : W32) (tag : BitVec 24) (code reason : Nat) (bs : List Byte) : Prop :=
  ∃ t, o = .next t ∧ t = { s with ls := { s.ls with eng := t.ls.eng, msg := t.ls.msg } } ∧ Replies s t host tag code reason bs

/-- Server `v` answers its one request `q` (R424, R426) with tag `tag` and the bytes `bs`. -/
def Answers (s t : State) (v : Nat) (slots : SMap MSlot) (q : ServReq) (tag : Nat) (bs : List Byte) : Prop :=
  SendsMessage slots (serverOf t v).eng.slots (rqReply q.bytes) (BitVec.ofNat 24 tag) (BitVec.ofNat 12 (rqGroup q.bytes)) q.job bs ∧
    (serverOf t v).queued = (serverOf s v).queued ∧
    (∃ n, (serverOf t v).active = [{ q with slot := some n }] ∧ SMap.find slots n = none) ∧
    (∀ u, u ≠ v → serverOf t u = serverOf s u) ∧ t.tiles = s.tiles ∧ t.ls = s.ls ∧ t.domains = s.domains

/-- The window entry `w` of request `q`, and its rows as window offsets (R423). -/
def RowsAt (b : List Byte) (f : Nat → Nat) : Prop :=
  ∀ r, r < rqRows b → f r = rqOffset b + (if rqOp b = 2 then leAt b (64 + 4 * r) 4 else r) * rqStride b

/-- The jobs' records but for slot `i`. -/
def OtherJobs (s t : State) (i : Fin 4) : Prop := ∀ k : Fin 4, k ≠ i → t.ls.jobs[k] = s.ls.jobs[k]

/-- Nothing but port `m` changes. -/
def PortNext (s : State) (m : Fin 10) (o : Out) (p : PortSt) : Prop :=
  ∃ t, o = .next t ∧ t = { s with ports := t.ports } ∧ Machine.portOf t m.val = p ∧ ∀ k, k ≠ m.val → Machine.portOf t k = Machine.portOf s k

/-- A request of the lightship (R446): one of a host that is not on the management list is not served; one that comes while
another is in service waits for its turn, once; any other leads to a state of `P`. -/
def ServedFor (s : State) (c : MgmtCmd) (o : Out) (P : State → Prop) : Prop :=
  (c.host ∉ s.ls.hosts → o = .next s) ∧
  (c.host ∈ s.ls.hosts → serveBusy s (.request c) = true →
    (.request c ∈ s.ls.deferred → o = .next s) ∧
    (.request c ∉ s.ls.deferred → o = .next { s with ls := { s.ls with deferred := s.ls.deferred ++ [.request c] } })) ∧
  (c.host ∈ s.ls.hosts → serveBusy s (.request c) = false → .request c ∉ s.ls.deferred → ∃ t, o = .next t ∧ P t)

/-- The lightship has a send under way of the bytes `bs` that it had not before, in a slot of its own (R424, R446). -/
def LightshipSends (s t : State) (dst : W32) (tag : BitVec 24) (group : BitVec 12) (bs : List Byte) : Prop :=
  ∃ n m, SMap.find s.ls.eng.slots n = none ∧ SMap.find t.ls.eng.slots n = some m ∧ m.kind = .send ∧ m.peer = dst ∧ m.tag = tag ∧
    m.group = group ∧ m.job = 0xFFFF ∧ m.st = .header ∧ m.len = bs.length ∧ m.payload = bs

/-- A state that differs from another in the lightship's engine alone. -/
def SameButSends (s t : State) : Prop := t = { s with ls := { s.ls with eng := t.ls.eng, msg := t.ls.msg } }

/-! ## Rounded results (R46 to R58) -/

/-- 2^e as a rational number. -/
def twoPow (e : Int) : Rat := if 0 ≤ e then ((2 ^ e.toNat : Nat) : Rat) else 1 / ((2 ^ (-e).toNat : Nat) : Rat)

/-- The number that a sign, a significand and the exponent of its last place stand for (R25). -/
def finRat (s : Bool) (m : Nat) (e : Int) : Rat := (if s then -1 else 1) * (m : Rat) * twoPow e

/-- A finite value is the number `x`. -/
def IsNum (v : FVal) (x : Rat) : Prop := ∃ s m e, v = .fin s m e ∧ x = finRat s m e

/-- The numbers of a format's precision, its exponents unbounded above and its subnormal spacing below (R46). -/
def OfFormat (f : Fmt) (x : Rat) : Prop :=
  ∃ s n q, n < 2 ^ (f.m + 1) ∧ f.eminQ ≤ q ∧ x = finRat s n q

/-- A number of the format whose last significand bit is even (R46). -/
def EvenOf (f : Fmt) (x : Rat) : Prop :=
  ∃ s n q, n < 2 ^ (f.m + 1) ∧ f.eminQ ≤ q ∧ (2 ^ f.m ≤ n ∨ q = f.eminQ) ∧ n % 2 = 0 ∧ x = finRat s n q

/-- An exact result, as the rational numbers that lie below it and those that lie above it. -/
structure Exact where
  above : Rat → Prop   -- the result is above this number
  below : Rat → Prop   -- the result is below this number

/-- The exact result `x`. -/
def exactly (x : Rat) : Exact := ⟨fun q => q < x, fun q => x < q⟩

/-- The root of a positive `x`. -/
def rootOf (x : Rat) : Exact := ⟨fun q => q < 0 ∨ q * q < x, fun q => 0 < q ∧ x < q * q⟩

/-- 1 over the root of a positive `x`. -/
def rootUnder (x : Rat) : Exact := ⟨fun q => q ≤ 0 ∨ x * (q * q) < 1, fun q => 0 < q ∧ 1 < x * (q * q)⟩

/-- An exact result that is no rational number apart from the number `v`. -/
def Exact.is (x : Exact) (v : Rat) : Prop := ¬ x.above v ∧ ¬ x.below v

/-- `v` is the rounding of the exact result `x`, under the mode of code `c`, to the numbers `P`, the even ones `E` (R46). -/
def RoundsTo (P E : Rat → Prop) (c : Nat) (x : Exact) (v : Rat) : Prop :=
  let down := ¬ x.below v ∧ ∀ w, P w → v < w → x.below w
  let up := ¬ x.above v ∧ ∀ w, P w → w < v → x.above w
  P v ∧ match c % 4 with
    | 0 => (∀ w, P w → w < v → ¬ x.below ((v + w) / 2) ∧ (x.is ((v + w) / 2) → E v)) ∧
           (∀ w, P w → v < w → ¬ x.above ((v + w) / 2) ∧ (x.is ((v + w) / 2) → E v))
    | 1 => if v = 0 then (∀ w, P w → 0 < w → x.below w) ∧ (∀ w, P w → w < 0 → x.above w) else if 0 < v then down else up
    | 2 => down
    | _ => up

/-- The flags of a result that is rounded to `v`: inexact where it differs, underflow where it is tiny as well (R56, R60). -/
def RoundFlags (f : Fmt) (x : Exact) (v : Rat) (fl : Nat) : Prop :=
  let tiny := x.above (-(twoPow (1 - (f.bias : Int)))) ∧ x.below (twoPow (1 - (f.bias : Int)))
  (x.is v → fl = 0) ∧ (¬ x.is v → tiny → fl = 8 + 16) ∧ (¬ x.is v → ¬ tiny → fl = 16)

/-- The encoding `mag` holds, under the sign, the exact result `x` rounded under the mode of code `c`, with its flags; none: the rounded
number is above the format's largest (R46, R51). -/
def RoundedFin (f : Fmt) (c : Nat) (s : Bool) (x : Exact) (o : Option Nat) (fl : Nat) : Prop :=
  ∃ v top, RoundsTo (OfFormat f) (EvenOf f) c x v ∧ IsNum (f.decode f.maxMag) top ∧
    (-top ≤ v ∧ v ≤ top → ∃ mag, o = some mag ∧ mag ≤ f.maxMag ∧ IsNum (f.decode (f.signBit s + mag)) v ∧ RoundFlags f x v fl) ∧
    (top < v ∨ v < -top → o = none)

/-- An arithmetic result of FP32, FP16 or BF16 (R46): past the largest finite value, infinity or that value as the mode says. -/
def RoundedArith (f : Fmt) (c : Nat) (s : Bool) (x : Exact) (p : Nat × Nat) : Prop :=
  (∃ mag fl, RoundedFin f c s x (some mag) fl ∧ p = (f.signBit s + mag, fl)) ∨
  (∃ fl, RoundedFin f c s x none fl ∧
    p = (f.signBit s + (if c % 4 = 0 ∨ (c % 4 = 2 ∧ s = true) ∨ (c % 4 = 3 ∧ s = false) then f.infMag else f.maxMag), 4 + 16))

/-- The whole numbers, and the even ones. -/
def Whole (x : Rat) : Prop := ∃ n : Int, x = n
def EvenWhole (x : Rat) : Prop := ∃ n : Int, x = 2 * n

end Sys2Proof.Claims
end

