-- ==== Sys2Proof/Certificates/Slice0/Obligations.lean ====
section
/-! DEFINITION. The statements for the provers. Each `Obligations.<Name>` formalises rules of spec/ about the model. -/

open Sys2Proof Sys2Proof.Machine

open Sys2Proof.Claims

/-! ## Keeper arithmetic -/

/-- R231 and R232: the register operations of one clk; the immediate operations; `i` is sign-extended for ADDI, SLTI,
SLTIU and ADDHI, zero-extended for the logical operations. -/
def Obligations.IntegerArithmeticResults : Prop :=
  (∀ (s : State) (d a b : BitVec 5),
     let x := kreg s a
     let y := kreg s b
     WritesReg s (exec (.add d a b) s) d (x + y) 1 ∧
     WritesReg s (exec (.sub d a b) s) d (x - y) 1 ∧
     WritesReg s (exec (.and d a b) s) d (x &&& y) 1 ∧
     WritesReg s (exec (.or d a b) s) d (x ||| y) 1 ∧
     WritesReg s (exec (.xor d a b) s) d (x ^^^ y) 1 ∧
     WritesReg s (exec (.andn d a b) s) d (x &&& ~~~ y) 1 ∧
     WritesReg s (exec (.shl d a b) s) d (if 64 ≤ y.toNat then 0 else BitVec.ofNat 64 (x.toNat * 2 ^ y.toNat)) 1 ∧
     WritesReg s (exec (.shr d a b) s) d (if 64 ≤ y.toNat then 0 else BitVec.ofNat 64 (x.toNat / 2 ^ y.toNat)) 1 ∧
     WritesReg s (exec (.sar d a b) s) d (BitVec.ofInt 64 (x.toInt / 2 ^ min y.toNat 63)) 1 ∧
     WritesReg s (exec (.slt d a b) s) d (if x.toInt < y.toInt then 1 else 0) 1 ∧
     WritesReg s (exec (.sltu d a b) s) d (if x.toNat < y.toNat then 1 else 0) 1 ∧
     WritesReg s (exec (.min d a b) s) d (BitVec.ofInt 64 (min x.toInt y.toInt)) 1 ∧
     WritesReg s (exec (.max d a b) s) d (BitVec.ofInt 64 (max x.toInt y.toInt)) 1 ∧
     WritesReg s (exec (.minu d a b) s) d (BitVec.ofNat 64 (min x.toNat y.toNat)) 1 ∧
     WritesReg s (exec (.maxu d a b) s) d (BitVec.ofNat 64 (max x.toNat y.toNat)) 1) ∧
  (∀ (s : State) (d a : BitVec 5) (i : BitVec 15) (c : BitVec 6),
     let x := kreg s a
     let j := i.signExtend 64
     let u := i.zeroExtend 64
     WritesReg s (exec (.addi d a i) s) d (x + j) 1 ∧
     WritesReg s (exec (.andi d a i) s) d (x &&& u) 1 ∧
     WritesReg s (exec (.ori d a i) s) d (x ||| u) 1 ∧
     WritesReg s (exec (.xori d a i) s) d (x ^^^ u) 1 ∧
     WritesReg s (exec (.slti d a i) s) d (if x.toInt < j.toInt then 1 else 0) 1 ∧
     WritesReg s (exec (.sltiu d a i) s) d (if x.toNat < j.toNat then 1 else 0) 1 ∧
     WritesReg s (exec (.shli d a c) s) d (BitVec.ofNat 64 (x.toNat * 2 ^ c.toNat)) 1 ∧
     WritesReg s (exec (.shri d a c) s) d (BitVec.ofNat 64 (x.toNat / 2 ^ c.toNat)) 1 ∧
     WritesReg s (exec (.sari d a c) s) d (BitVec.ofInt 64 (x.toInt / 2 ^ c.toNat)) 1 ∧
     WritesReg s (exec (.addhi d a i) s) d (x + BitVec.ofInt 64 (j.toInt * 2 ^ 15)) 1)

/-- R232: multiplication, with a latency of 3 clk; division truncates toward zero; the two corners have a value and no
trap; the bit counts. -/
def Obligations.MultiplyDivideAndCountResults : Prop :=
  (∀ (s : State) (d a b : BitVec 5),
     let x := kreg s a
     let y := kreg s b
     WritesReg s (exec (.mul d a b) s) d (BitVec.ofNat 64 (x.toNat * y.toNat)) 3 ∧
     WritesReg s (exec (.mulh d a b) s) d (BitVec.ofInt 64 (x.toInt * y.toInt / 2 ^ 64)) 3 ∧
     WritesReg s (exec (.mulhu d a b) s) d (BitVec.ofNat 64 (x.toNat * y.toNat / 2 ^ 64)) 3) ∧
  (∀ (s : State) (d a b : BitVec 5),
     let x := kreg s a
     let y := kreg s b
     WritesReg s (exec (.div d a b) s) d (if y = 0 then BitVec.allOnes 64 else BitVec.ofInt 64 (Int.tdiv x.toInt y.toInt)) 18 ∧
     WritesReg s (exec (.divu d a b) s) d (if y = 0 then BitVec.allOnes 64 else BitVec.ofNat 64 (x.toNat / y.toNat)) 18 ∧
     WritesReg s (exec (.rem d a b) s) d (if y = 0 then x else BitVec.ofInt 64 (Int.tmod x.toInt y.toInt)) 18 ∧
     WritesReg s (exec (.remu d a b) s) d (if y = 0 then x else BitVec.ofNat 64 (x.toNat % y.toNat)) 18) ∧
  (∀ (s : State) (d a : BitVec 5), ∃ p l t : Nat,
     WritesReg s (exec (.popc d a) s) d (BitVec.ofNat 64 p) 1 ∧
     WritesReg s (exec (.clz d a) s) d (BitVec.ofNat 64 l) 1 ∧
     WritesReg s (exec (.ctz d a) s) d (BitVec.ofNat 64 t) 1 ∧
     p = ((List.finRange 64).filter (fun i => (kreg s a).getLsbD i.val)).length ∧
     l ≤ 64 ∧ (∀ i, i < l → (kreg s a).getLsbD (63 - i) = false) ∧ (l < 64 → (kreg s a).getLsbD (63 - l) = true) ∧
     t ≤ 64 ∧ (∀ i, i < t → (kreg s a).getLsbD i = false) ∧ (t < 64 → (kreg s a).getLsbD t = true))

/-! ## Loads, stores, branches, jumps -/

/-- R233: the loads that nothing turns away; LH, LW and LD read little-endian (R9), and LD.SK goes through the skew
mapping; the stores that nothing turns away write the low bytes of ks, and no other byte changes. -/
def Obligations.LoadAndStoreResults : Prop :=
  (∀ (s : State) (d a : BitVec 5) (i : BitVec 15),
     let x := (kreg s a + i.signExtend 64).toNat
     let m := (cur s).sram
     (AccessOk s x 1 false false →
       Loads s (exec (.lb d a i) s) d ((Mem.read m x).signExtend 64) ∧
       Loads s (exec (.lbu d a i) s) d ((Mem.read m x).zeroExtend 64)) ∧
     (AccessOk s x 2 false false →
       Loads s (exec (.lh d a i) s) d ((Mem.read m (x + 1) ++ Mem.read m x).signExtend 64) ∧
       Loads s (exec (.lhu d a i) s) d ((Mem.read m (x + 1) ++ Mem.read m x).zeroExtend 64)) ∧
     (AccessOk s x 4 false false →
       Loads s (exec (.lw d a i) s) d
         ((Mem.read m (x + 3) ++ Mem.read m (x + 2) ++ Mem.read m (x + 1) ++ Mem.read m x).signExtend 64) ∧
       Loads s (exec (.lwu d a i) s) d
         ((Mem.read m (x + 3) ++ Mem.read m (x + 2) ++ Mem.read m (x + 1) ++ Mem.read m x).zeroExtend 64)) ∧
     (∀ skew : Bool, AccessOk s x 8 false skew →
       let y := accessAt s skew x
       Loads s (exec (if skew then .ldSk d a i else .ld d a i) s) d
         (Mem.read m (y + 7) ++ Mem.read m (y + 6) ++ Mem.read m (y + 5) ++ Mem.read m (y + 4) ++
           Mem.read m (y + 3) ++ Mem.read m (y + 2) ++ Mem.read m (y + 1) ++ Mem.read m y))) ∧
  (∀ (s : State) (r a : BitVec 5) (i : BitVec 15),
     let x := (kreg s a + i.signExtend 64).toNat
     (AccessOk s x 1 true false → Stores s (exec (.sb r a i) s) x 1 (kreg s r)) ∧
     (AccessOk s x 2 true false → Stores s (exec (.sh r a i) s) x 2 (kreg s r)) ∧
     (AccessOk s x 4 true false → Stores s (exec (.sw r a i) s) x 4 (kreg s r)) ∧
     (∀ skew : Bool, AccessOk s x 8 true skew →
       Stores s (exec (if skew then .sdSk r a i else .sd r a i) s) (accessAt s skew x) 8 (kreg s r)))

/-- R234: an access out of the range of the level traps SRAM_BOUND, and one within it that is not aligned traps MISALIGNED,
each before the access. -/
def Obligations.AccessFaultsTrap : Prop :=
  ∀ (s : State) (d a : BitVec 5) (i : BitVec 15),
    let v := kreg s a + i.signExtend 64
    ∀ p ∈ [(Instr.lb d a i, 1), (.lbu d a i, 1), (.lh d a i, 2), (.lhu d a i, 2), (.lw d a i, 4), (.lwu d a i, 4),
        (.ld d a i, 8), (.ldSk d a i, 8), (.sb d a i, 1), (.sh d a i, 2), (.sw d a i, 4), (.sd d a i, 8), (.sdSk d a i, 8)],
      let ok := inBounds (cur s) (cur s).keeper.station v.toNat p.2
      (ok = false → TrapsSync s (exec p.1 s) 2 v 31 0) ∧
      (ok = true → v.toNat % p.2 ≠ 0 → TrapsSync s (exec p.1 s) 3 v 31 0)

/-- R230 and R235: a branch goes to PC + 4 * i where its condition holds, and to the next word where it does not; it
changes nothing else; J and JAL go to PC + 4 * i, JALR to ka + i; JAL and JALR leave the return address, and a JALR
target that is no multiple of 4 traps MISALIGNED. -/
def Obligations.BranchAndJumpResults : Prop :=
  (∀ (s : State) (a b : BitVec 5) (i : BitVec 15),
     let x := kreg s a
     let y := kreg s b
     let pc := (cur s).keeper.pc
     let to_ (o : Out) (c : Prop) : Prop :=
       TileNext s o (fun t => KeeperOnly s t ∧
         (c → GoesTo s t.keeper (pc + BitVec.ofInt 64 (4 * i.toInt)) 3) ∧ (¬ c → GoesTo s t.keeper (pc + 4) 1))
     to_ (exec (.beq a b i) s) (x = y) ∧
     to_ (exec (.bne a b i) s) (x ≠ y) ∧
     to_ (exec (.blt a b i) s) (x.toInt < y.toInt) ∧
     to_ (exec (.bge a b i) s) (y.toInt ≤ x.toInt) ∧
     to_ (exec (.bltu a b i) s) (x.toNat < y.toNat) ∧
     to_ (exec (.bgeu a b i) s) (y.toNat ≤ x.toNat)) ∧
  (∀ (s : State) (d a : BitVec 5) (i : BitVec 15) (j : BitVec 25),
     let pc := (cur s).keeper.pc
     let target := kreg s a + i.signExtend 64
     let to_ (o : Out) (p : W64) (d : BitVec 5) (v : W64) : Prop :=
       TileNext s o (fun t => KeeperOnly s t ∧ RegWritten s t.keeper d v 1 ∧ SameMode (cur s).keeper t.keeper ∧
         t.keeper.pc = p ∧ s.cycle + 3 ≤ t.keeper.issueAt)
     TileNext s (exec (.j j) s) (fun t => KeeperOnly s t ∧ GoesTo s t.keeper (pc + BitVec.ofInt 64 (4 * j.toInt)) 3) ∧
     to_ (exec (.jal j) s) (pc + BitVec.ofInt 64 (4 * j.toInt)) 31 (pc + 4) ∧
     (target.toNat % 4 = 0 → to_ (exec (.jalr d a i) s) target d (pc + 4)) ∧
     (target.toNat % 4 ≠ 0 → TrapsSync s (exec (.jalr d a i) s) 3 target 31 0))

/-! ## System instructions -/

/-- R222, R239 and R241: NOP, and CKPT in a tile that is not paired, only advance; DHALT halts the tile for debugging
with the PC at the next instruction, its registers as they were; CKPT in a paired tile at job level, with every lamp
STOPPED and every token set, keeps the registers as they stand after it and opens an empty undo log, and no byte of SRAM
outside the 12 KiB of the register checkpoint changes; where a lamp or a token is not ready, and at station level of a paired tile,
it traps ILLEGAL. At station level both answers, the ILLEGAL of a paired tile and the advance of an unpaired one, are the model's
reading (log entry 28). -/
def Obligations.NopDhaltAndCkpt : Prop :=
  (∀ s : State,
     OnlyAdvances s (exec .nop s) ∧
     ((cur s).duplex = .solo → OnlyAdvances s (exec .ckpt s)) ∧
     ((cur s).keeper.debugHalt = false →
       TileNext s (exec .dhalt s) (fun t => t.keeper.debugHalt = true ∧ t.keeper.pc = (cur s).keeper.pc + 4 ∧
         SameRegs s t.keeper ∧ t.ctrl = { (cur s).ctrl with events := (cur s).ctrl.events ||| oneBit 39 } ∧
         t.sram = (cur s).sram ∧ t.ws = (cur s).ws ∧ t.eng = (cur s).eng ∧ t.msg = (cur s).msg))) ∧
  (∀ s : State, (cur s).duplex ≠ .solo → (cur s).keeper.station = false →
     let quiet := (∀ l : Fin 16, ((cur s).act.lamps[l]).st = .stopped) ∧ ∀ n, n < 64 → tokSet (cur s) false n = true
     (quiet → ∃ (t : Tile) (n : Nat) (c : Checkpoint),
       exec .ckpt s = .next { setTile s s.focus.val t with freeCtr := n } ∧
       t = { cur s with keeper := t.keeper, ckpt := some c, sram := t.sram } ∧ GoesTo s t.keeper ((cur s).keeper.pc + 4) 1 ∧
       c.keeper = t.keeper ∧ c.ctrl = t.ctrl ∧ c.lamps = t.act ∧ c.free = t.free ∧ c.granules = [] ∧ c.slots = [] ∧
       ∀ x, (x < 0x1D0000 ∨ 0x1D3000 ≤ x) → Mem.read t.sram x = Mem.read (cur s).sram x) ∧
     (¬ quiet → TrapsSync s (exec .ckpt s) 1 0 31 0)) ∧
  (∀ s : State, (cur s).duplex ≠ .solo → (cur s).keeper.station = true → TrapsSync s (exec .ckpt s) 1 (wordOf .ckpt) 31 0)

/-- R239: TRET at job level clears in_trap and returns to TRAPPC; it is ILLEGAL there while in_trap is 0; TRET at station
level returns to the level that the trap recorded and to STRAPPC; in_trap stays. -/
def Obligations.TretReturns : Prop :=
  (∀ s : State, (cur s).keeper.station = false →
     ((cur s).keeper.inTrap = true →
       TileNext s (exec .tret s) (fun t => ((cur s).keeper.preempted = false → KeeperOnly s t) ∧ SameRegs s t.keeper ∧ t.keeper.inTrap = false ∧
         t.keeper.station = false ∧ t.keeper.pc = (cur s).ctrl.trappc &&& maskBits 2 19 ∧ s.cycle + 3 ≤ t.keeper.issueAt)) ∧
     ((cur s).keeper.inTrap = false → TrapsSync s (exec .tret s) 1 (wordOf .tret) 31 0)) ∧
  (∀ s : State, (cur s).keeper.station = true →
     TileNext s (exec .tret s) (fun t => ((cur s).keeper.preempted = false → KeeperOnly s t) ∧ SameRegs s t.keeper ∧
       t.keeper.inTrap = (cur s).keeper.inTrap ∧ t.keeper.station = bit (cur s).ctrl.strapcause 29 ∧
       t.keeper.pc = (cur s).ctrl.strappc &&& maskBits 2 19 ∧ s.cycle + 3 ≤ t.keeper.issueAt))

/-- R208, R212 and R240: WAITEV and TWAITA return the masked word once it is not zero, or at once for a mask of 0; TWAIT
goes on once every token of the mask is set; until then each waits; the view of the tokens has bit n set exactly where
the count of token n is 0, and t0 is always set. -/
def Obligations.WaitInstructionsAndTokenView : Prop :=
  (∀ (s : State) (d a : BitVec 5),
     let m := kreg s a
     let ev := (cur s).ctrl.events &&& m
     let tok := tokLo (cur s) (cur s).keeper.station
     (ev ≠ 0 ∨ m = 0 → WritesReg s (exec (.waitev d a) s) d ev 1) ∧
     (ev = 0 → m ≠ 0 → Waits s (exec (.waitev d a) s) (.waitev d a)) ∧
     (tok &&& m ≠ 0 ∨ m = 0 → WritesReg s (exec (.twaita d a) s) d (tok &&& m) 1) ∧
     (tok &&& m = 0 → m ≠ 0 → Waits s (exec (.twaita d a) s) (.twaita d a)) ∧
     (tok &&& m = m → OnlyAdvances s (exec (.twait a) s)) ∧
     (tok &&& m ≠ m → Waits s (exec (.twait a) s) (.twait a))) ∧
  (∀ (t : Tile) (station : Bool) (n : Nat), n < 64 →
     (bit (tokLo t station) n = true ↔ n = 0 ∨ vget (if station then t.stok else t.eng.tok) n 0 = 0))

/-- R241, R445: DONE at job level waits until every token is set and every lamp has ended; then the keeper halts and its leaf
word is in the job's done tree, its code's sign in bits 47:32. At station level it traps ILLEGAL. That the halted keeper keeps the
PC of its DONE is the model's reading (log entry 29). -/
def Obligations.DoneSendsTheLeafWord : Prop :=
  ∀ (s : State) (a : BitVec 5),
    let ended := (∀ l : Fin 16, ((cur s).act.lamps[l]).st = .stopped ∨ ((cur s).act.lamps[l]).st = .faulted) ∧
      ∀ n, n < 64 → tokSet (cur s) false n = true
    let v := kreg s a
    let word : W64 := BitVec.ofNat 64
      (v.toNat / 2 ^ 48 * 2 ^ 48 + (if v.toNat / 2 ^ 48 = 0 then 0 else 2 ^ 32) + v.toNat % 2 ^ 32)
    ((cur s).keeper.station = true → TrapsSync s (exec (.done a) s) 1 (wordOf (.done a)) 31 0) ∧
    ((cur s).keeper.station = false → ¬ ended → Waits s (exec (.done a) s) (.done a)) ∧
    ((cur s).keeper.station = false → ended →
      ∃ t, exec (.done a) s = .next t ∧
        cur t = { cur s with keeper := { (cur s).keeper with halted := true, waiting := none } } ∧
        (∀ q, q ≠ s.focus.val → tileOf t q = tileOf s q) ∧
        (∀ (i : Fin 4) (j : Job), s.ls.jobs[i] = some j → j.id = jobOf (cur s) → j.st ≠ .ended →
          leafSent j s.focus.val = false →
          t.ls.jobs[i] = some { j with words := j.words ++ [(s.focus.val, s.focus.val, word)] }))

/-! ## Control registers -/

/-- R201, R236 and R237: CRR reads any register that the level may read; CRW, CRS and CRC of the registers that store
what is written but for their reserved bits; every other register reads as before. -/
def Obligations.ControlRegisterInstructions : Prop :=
  (∀ (s : State) (d : BitVec 5) (n : BitVec 12),
     (crAssigned n.toNat = true → ((cur s).keeper.station = true ∨ n.toNat < 0x100) →
       WritesReg s (exec (.crr d n) s) d (crRead s.cycle (cur s) n.toNat) 1) ∧
     (crAssigned n.toNat = false → TrapsSync s (exec (.crr d n) s) 1 (n.zeroExtend 64) 31 0) ∧
     (crAssigned n.toNat = true → (cur s).keeper.station = false → 0x100 ≤ n.toNat →
       TrapsSync s (exec (.crr d n) s) 4 (n.zeroExtend 64) 31 0)) ∧
  (∀ (s : State) (r : BitVec 5), ∀ p ∈ plainRegs,
     ((cur s).keeper.station = true ∨ p.2.2 = false ∨ bit (cur s).ctrl.caps 2 = true) →
     let n : BitVec 12 := BitVec.ofNat 12 p.1
     let old := crRead s.cycle (cur s) p.1
     RegStored s (exec (.crw r n) s) p.1 (kreg s r &&& p.2.1) ∧
     RegStored s (exec (.crs r n) s) p.1 ((old ||| kreg s r) &&& p.2.1) ∧
     RegStored s (exec (.crc r n) s) p.1 ((old &&& ~~~ kreg s r) &&& p.2.1))

/-- R201, R217 and R237: at job level CRW clears the bits of EVENTS that are written as 1, at station level it writes them, and CRS
and CRC of EVENTS or ECCSTAT trap ILLEGAL; at job level a write of a register marked R, and of one marked P without CAPS.protreg, and of one marked S,
traps PRIV and changes no register; at station level a write of RANK, CYCLE, TOKLO or TOKHI traps ILLEGAL. -/
def Obligations.EventsAndProtectedRegisters : Prop :=
  (∀ (s : State) (r : BitVec 5),
     ((cur s).keeper.station = false → RegStored s (exec (.crw r 0x00C) s) 0x00C ((cur s).ctrl.events &&& ~~~ kreg s r)) ∧
     ((cur s).keeper.station = true →
       RegStored s (exec (.crw r 0x00C) s) 0x00C (kreg s r &&& (maskBits 33 8 ||| maskBits 0 32))) ∧
     (∀ n ∈ [(0x00C : BitVec 12), 0x00E], TrapsSync s (exec (.crs r n) s) 1 (n.zeroExtend 64) 31 0 ∧
       TrapsSync s (exec (.crc r n) s) 1 (n.zeroExtend 64) 31 0)) ∧
  (∀ (s : State) (r : BitVec 5) (n : BitVec 12),
     ∀ i ∈ [Instr.crw r n, .crs r n, .crc r n],
       ((cur s).keeper.station = false → crAssigned n.toNat = true →
         (n.toNat ∈ [0, 1, 2, 3, 4, 6, 7] ∨ (0x40 ≤ n.toNat ∧ n.toNat ≤ 0x4F) ∨ 0x100 ≤ n.toNat ∨
           (n.toNat ∈ [0x10, 0x13, 0x20, 0x21, 0x28, 0x29, 0x2A, 0x2B, 0x2C] ∧ bit (cur s).ctrl.caps 2 = false)) →
         TrapsSync s (exec i s) 4 (n.zeroExtend 64) 31 0) ∧
       ((cur s).keeper.station = true → n.toNat ∈ [0, 3, 6, 7] → TrapsSync s (exec i s) 1 (n.zeroExtend 64) 31 0))

/-- R202, R203, R207, R215, R217, R224, R262, R279, R382, R454: each register row stores the value under the rule of its
register, EVENTS and ECCSTAT whole at station level alone; a value that the rule refuses traps ILLEGAL. -/
def Obligations.RegisterRowsStore : Prop :=
  ∀ (s : State) (v : W64),
    let t := cur s
    RegSet s (exec (.alarm v) s) 0x005 v ∧
    RegSet s (exec (.events v) s) 0x00C
      (if t.keeper.station then v &&& (maskBits 33 8 ||| maskBits 0 32) else t.ctrl.events &&& ~~~ v) ∧
    RegSet s (exec (.eccstat v) s) 0x00E
      (if t.keeper.station then v &&& maskBits 0 40 else t.ctrl.eccstat &&& ~~~ (v &&& maskBits 32 8)) ∧
    RegSet s (exec (.checkmode v) s) 0x014 (v &&& (maskBits 32 16 ||| maskBits 0 2)) ∧
    (let ok := fld v 12 9 ≤ (if t.duplex = .solo then 0x1F0 else 0x1D0) ∧
        fld t.ctrl.uxpool 12 9 + fld t.ctrl.uxpool 32 9 ≤ fld v 12 9;
      (ok → RegSet s (exec (.sramlim v) s) 0x010 (v &&& maskBits 12 9)) ∧
      (¬ ok → TrapsSync s (exec (.sramlim v) s) 1 0x010 31 0)) ∧
    (let ok := (1 ≤ fld v 32 9 ∧ fld v 32 9 ≤ 256) ∧ fld v 12 9 + fld v 32 9 ≤ fld t.ctrl.sramlim 12 9 ∧ t.eng.pool = [];
      (ok → RegSet s (exec (.uxpool v) s) 0x013 (v &&& (maskBits 32 9 ||| maskBits 12 9))) ∧
      (¬ ok → TrapsSync s (exec (.uxpool v) s) 1 0x013 31 0)) ∧
    (let ok := 1 ≤ fld v 0 6 ∧ fld v 0 6 ≤ 32;
      (ok → RegSet s (exec (.eagermax v) s) 0x020 (v &&& maskBits 0 6)) ∧
      (¬ ok → TrapsSync s (exec (.eagermax v) s) 1 0x020 31 0)) ∧
    (matchlogOk t v = true → RegSet s (exec (.matchlog v) s) 0x021
      (v &&& (maskBits 48 16 ||| maskBits 40 5 ||| maskBits 12 9 ||| maskBits 0 3))) ∧
    (matchlogOk t v = false → TrapsSync s (exec (.matchlog v) s) 1 0x021 31 0) ∧
    (∀ p ∈ plainRegs, RegSet s (exec (.controlRegisterWrite (BitVec.ofNat 12 p.1) v) s) p.1 (v &&& p.2.1))

/-! ## Engine commands -/

/-- R209, R227, R242, R390: the checks of the issue of a command, in their order; each trap leaves the tokens and queues as they
were; SCAN, at a register of level 0, traps ILLEGAL before any of them (the order is the model's choice: log entry 118). -/
def Obligations.CommandChecksTrap : Prop :=
  (∀ (s : State) (t : Tok) (k : BitVec 5) (m n : Tok) (x : BitVec 2),
    let i := Instr.scan t k m n x
    let level := fld (vget (cur s).ctrl.dom x.toNat 0) 59 3
    (level = 0 ∨ 28 < k.toNat → TrapsSync s (exec i s) 1 (wordOf i) 31 0) ∧
    (level ≠ 0 → k.toNat ≤ 28 → t ≠ 0 → (t = m ∨ t = n ∨ t = (kreg s (k + 3)).extractLsb' 58 6) →
      TrapsSync s (exec i s) 1 (t.zeroExtend 64) 31 0)) ∧
  ∀ (s : State) (t : Tok) (k : BitVec 5) (m n : Tok) (y x c : BitVec 1),
    ∀ p ∈ copyRows t k m n y x c ++ lensRows t k m n ++ msgRows t k m n ++ [(.winset t k m n, 0x4C, 0)],
      let station := (cur s).keeper.station
      let reach := station = true ∨ (p.2.1 ≠ 0x58 ∧ (p.2.1 = 0x4C → bit (cur s).ctrl.caps 1 = true))
      (28 < k.toNat → TrapsSync s (exec p.1 s) 1 (wordOf p.1) 31 0) ∧
      (k.toNat ≤ 28 → ¬ reach → TrapsSync s (exec p.1 s) 4 (wordOf p.1) 31 0) ∧
      (k.toNat ≤ 28 → reach → t ≠ 0 → (t = m ∨ t = n ∨ t = (kreg s (k + 3)).extractLsb' 58 6) →
        TrapsSync s (exec p.1 s) 1 (t.zeroExtend 64) 31 0)

/-- R208, R211, R222, R242, R283, R335, R337 and R340: a copy or spill command that passes its checks enters the copy queue, or the
station entry, with its descriptor, and one with a fault in its descriptor is to complete FAULT in the next clk; with the queue
full the keeper waits; a lens command that passes its checks enters
the lens queue, or the station entry; with the queue full the keeper waits; one with a fault in its descriptor completes FAULT with
its issue (log entry 22), its status word and the lens fault word (R335, R337) recorded, with no effect on any queue. -/
def Obligations.CopyAndLensCommandsEnterTheirQueue : Prop :=
  (∀ (s : State) (t : Tok) (k : BitVec 5) (m n : Tok) (y x c : BitVec 1),
     ∀ p ∈ copyRows t k m n y x c, KcChecks s p.2.1 t k m n →
       let room := if (cur s).keeper.station then (cur s).stCopy = none else (cur s).eng.copyQ.length < 2
       (¬ room → Waits s (exec p.1 s) p.1) ∧
       (room → copyIssueReason (cur s) (kcmdOf s p.2.1 p.2.2 k t m n) = 0 →
         TileNext s (exec p.1 s) (fun u => ∃ cmd, CommandIs s cmd p.2.1 p.2.2 t k m n ∧
           KeeperAndEngines s u ∧ GoesTo s u.keeper ((cur s).keeper.pc + 4) 1 ∧ TokenCounted s u t ∧ u.ckpt = (cur s).ckpt ∧
           u.stLens = (cur s).stLens ∧ u.stSlots = (cur s).stSlots ∧
           (if (cur s).keeper.station then u.stCopy = some cmd ∧ SameButTokens (cur s).eng u.eng
            else u.stCopy = (cur s).stCopy ∧
              SameButTokens { (cur s).eng with copyQ := (cur s).eng.copyQ ++ [cmd] } u.eng))) ∧
       (let why := copyIssueReason (cur s) (kcmdOf s p.2.1 p.2.2 k t m n)
        room → why ≠ 0 → TileNext s (exec p.1 s) (fun u => ∃ cmd acc, CommandIs s cmd p.2.1 p.2.2 t k m n ∧
          u.failing = (cur s).failing ++ [(cmd, why, acc, s.cycle + 1)] ∧ SameButTokens (cur s).eng u.eng ∧
          u = { cur s with keeper := u.keeper, eng := u.eng, stok := u.stok, cmdStamp := u.cmdStamp, failing := u.failing } ∧
          GoesTo s u.keeper ((cur s).keeper.pc + 4) 1 ∧ TokenCounted s u t))) ∧
  (∀ (s : State) (t : Tok) (k : BitVec 5) (m n : Tok),
     ∀ p ∈ lensRows t k m n, KcChecks s p.2.1 t k m n →
       let room := if (cur s).keeper.station then (cur s).stLens = none else (cur s).eng.lensQ.length < 4
       (¬ room → Waits s (exec p.1 s) p.1) ∧
       (room → lensIssueReason (cur s) (kcmdOf s p.2.1 p.2.2 k t m n) = 0 →
         TileNext s (exec p.1 s) (fun u => ∃ cmd, CommandIs s cmd p.2.1 p.2.2 t k m n ∧
           KeeperAndEngines s u ∧ GoesTo s u.keeper ((cur s).keeper.pc + 4) 1 ∧ TokenCounted s u t ∧ u.ckpt = none ∧
           u.stCopy = (cur s).stCopy ∧ u.stSlots = (cur s).stSlots ∧
           (if (cur s).keeper.station then u.stLens = some cmd ∧ SameButTokens (cur s).eng u.eng
            else u.stLens = (cur s).stLens ∧
              SameButTokens { (cur s).eng with lensQ := (cur s).eng.lensQ ++ [cmd] } u.eng))) ∧
       (let why := lensIssueReason (cur s) (kcmdOf s p.2.1 p.2.2 k t m n)
        let old := (cur s).eng.lensFault
        room → why ≠ 0 → (∀ q, (cur s).parked = some q → q.1 ≠ jobOf (cur s)) →
          TileNext s (exec p.1 s) (fun u =>
            u = { cur s with keeper := u.keeper, cmdStamp := u.cmdStamp, ckpt := none, stok := u.stok,
                             ctrl := { (cur s).ctrl with events := (cur s).ctrl.events ||| oneBit 33 },
                             eng := { (cur s).eng with tok := u.eng.tok, lensStatus := u.eng.lensStatus,
                                                       lensFault := u.eng.lensFault } } ∧
            GoesTo s u.keeper ((cur s).keeper.pc + 4) 1 ∧
            (∀ station n, n < 64 → tokCount u station n = tokCount (cur s) station n) ∧
            (∀ n, n < 64 → vget u.eng.lensStatus n 0 = if n = t.toNat ∧ n ≠ 0 then 15 else vget (cur s).eng.lensStatus n 0) ∧
            (bit old 63 = true → u.eng.lensFault = old ||| oneBit 62) ∧
            (bit old 63 = false → u.eng.lensFault =
              BitVec.ofNat 64 (2 ^ 63 + t.toNat * 2 ^ 56 + p.2.1.toNat * 2 ^ 49 + why * 2 ^ 44)))))

/-- R242, R253, R306, R307, R393 and R436: a message command whose checks pass waits in its slot with what the descriptor
says; while the slot is busy the keeper waits; SCAN on a domain register of a level, and WINSET, whose input tokens are
not yet set, wait in the message engine with their descriptors. -/
def Obligations.MessageScanAndWinsetCommandsWait : Prop :=
  (∀ (s : State) (t : Tok) (k : BitVec 5) (m n : Tok),
     ∀ p ∈ msgRows t k m n, KcChecks s p.2.1 t k m n →
       let cmd := kcmdOf s p.2.1 p.2.2 k t m n
       let slot := fld (kreg s (k + 1)) 36 7
       let here := if (cur s).keeper.station then SMap.find (cur s).stSlots slot else SMap.find (cur s).eng.slots slot
       let free := ((cur s).keeper.station = true → slot < 8) ∧ ∀ q, here = some q → q.busy = false
       (((cur s).keeper.station = true → slot < 8) → ¬ free → Waits s (exec p.1 s) p.1) ∧
       (free → msgOk s s.focus.val cmd = true →
         TileNext s (exec p.1 s) (fun u => KeeperAndEngines s u ∧ GoesTo s u.keeper ((cur s).keeper.pc + 4) 1 ∧
           TokenCounted s u t ∧ u.stCopy = (cur s).stCopy ∧ u.stLens = (cur s).stLens ∧
           u.eng = { (cur s).eng with tok := u.eng.tok, slots := u.eng.slots } ∧
           (if (cur s).keeper.station then u.eng = (cur s).eng else u.stSlots = (cur s).stSlots) ∧
           ∃ q, SMap.find (if (cur s).keeper.station then u.stSlots else u.eng.slots) slot = some q ∧
             q.st = .waiting ∧ q.kind = msgKind p.2.1.toNat ∧ q.tag = (kreg s (k + 1)).extractLsb' 0 24 ∧
             q.group = (kreg s (k + 1)).extractLsb' 24 12 ∧ q.buf = fld (kreg s (k + 2)) 0 21 ∧
             q.len = fld (kreg s (k + 2)) 32 22 ∧ q.d3 = kreg s (k + 3) ∧ q.tout = t ∧ q.tin0 = m ∧ q.tin1 = n ∧
             ∀ j, j ≠ slot → SMap.find (if (cur s).keeper.station then u.stSlots else u.eng.slots) j =
               SMap.find (if (cur s).keeper.station then (cur s).stSlots else (cur s).eng.slots) j))) ∧
  (∀ (s : State) (t : Tok) (k : BitVec 5) (m n : Tok) (x : BitVec 2),
     (∀ c ∈ (cur s).eng.scanQ, inputsSet (cur s) c = false) →
     (m ≠ 0 ∧ m ≠ t ∧ tokSet (cur s) (cur s).keeper.station m.toNat = false) →
     let after (op : BitVec 7) (sub : BitVec 2) (o : Out) : Prop :=
       TileNext s o (fun u => ∃ cmd, CommandIs s cmd op sub t k m n ∧ KeeperAndEngines s u ∧
         GoesTo s u.keeper ((cur s).keeper.pc + 4) 1 ∧ TokenCounted s u t ∧ u.ckpt = none ∧
         SameButTokens { (cur s).eng with scanQ := (cur s).eng.scanQ ++ [cmd] } u.eng)
     (KcChecks s 0x3A t k m n → fld (vget (cur s).ctrl.dom x.toNat 0) 59 3 ≠ 0 →
       scanOk (cur s) (kcmdOf s 0x3A x k t m n) = true → after 0x3A x (exec (.scan t k m n x) s)) ∧
     (KcChecks s 0x4C t k m n → after 0x4C 0 (exec (.winset t k m n) s)))

/-! ## Queries and other keeper instructions of the units -/

/-- R312: PROBE and PROBE.LEN return the first stored header that a receive with the operands would match, and change
nothing else; MWAIT waits for its slot and returns word 0 of its record; MTEST returns which slots are not busy; MSTAT
returns the word asked for. A slot that was never used is FREE. -/
def Obligations.ProbesAndSlotQueries : Prop :=
  (∀ (s : State) (d a b : BitVec 5),
     let src := (kreg s a).extractLsb' 0 32
     let tag := (kreg s b).extractLsb' 0 24
     let group := (kreg s b).extractLsb' 24 12
     let job := if (cur s).keeper.station then 0xFFFF else jobOf (cur s)
     let fits_ (h : HdrRec) : Prop := h.pkt.job = job ∧ h.pkt.group = group ∧ (src = 0xFFFFFFFF ∨ h.pkt.src = src) ∧
       (tag = 0xFFFFFF ∨ h.pkt.tag = tag)
     (group = 0xFFF ∨ (∀ h ∈ (cur s).msg.hdrs, ¬ fits_ h) →
       WritesReg s (exec (.probe d a b) s) d 0 2 ∧ WritesReg s (exec (.probeLen d a b) s) d 0 2) ∧
     (∀ (before after : List HdrRec) (h : HdrRec), group ≠ 0xFFF → (cur s).msg.hdrs = before ++ h :: after →
       (∀ g ∈ before, ¬ fits_ g) → fits_ h →
       WritesReg s (exec (.probe d a b) s) d (h.pkt.src ++ h.pkt.tag ++ BitVec.ofNat 4 (hdrCode h) ++ (1 : BitVec 4)) 2 ∧
       WritesReg s (exec (.probeLen d a b) s) d (BitVec.ofNat 64 (2 ^ 63 + h.pkt.len)) 2)) ∧
  (∀ (s : State) (d a b : BitVec 5),
     let x := kreg s a
     let slot (j : Nat) : Option MSlot :=
       if (cur s).keeper.station then SMap.find (cur s).stSlots j else SMap.find (cur s).eng.slots j
     let busy (j : Nat) : Prop := ∃ m, slot j = some m ∧ m.busy = true
     (¬ busy (fld x 0 7) → WritesReg s (exec (.mwait d a) s) d (statusRec (slot (fld x 0 7)) false) 1) ∧
     (busy (fld x 0 7) → Waits s (exec (.mwait d a) s) (.mwait d a)) ∧
     WritesReg s (exec (.mstat d a) s) d (statusRec (slot (fld x 0 7)) (bit x 7)) 2 ∧
     (∃ v, WritesReg s (exec (.mtest d a b) s) d v 2 ∧
       ∀ j, j < 64 → (bit v j = true ↔ bit x j = true ∧ ¬ busy ((if bit (kreg s b) 0 then 64 else 0) + j))))

/-- R271, R272, R312 and R313: CANCEL of a WAITING or POSTED command returns 2 and the command ends CANCELLED; so does that of a
receive in DATA, matched to an RTS or a stub, which sends ABORT and delivers nothing; of a receive matched to an eager message or whose
data is complete, of a started send, and of a slot that is not busy it returns 6 and changes nothing; MQUIESCE is for the station; it
quiesces the engine once no receive and no send of any slot of the tile is in DATA (log entry 41), and ends the quiet. -/
def Obligations.CancelAndMquiesce : Prop :=
  (∀ (s : State) (d a : BitVec 5), (cur s).keeper.station = false →
     let n := fld (kreg s a) 0 7
     let after (P : State → Prop) : Prop := ∃ t, exec (.cancel d a) s = .next t ∧ RegWritten s (cur t).keeper d 2 2 ∧
       (cur t).keeper.pc = (cur s).keeper.pc + 4 ∧ P t
     (SMap.find (cur s).eng.slots n = none → WritesReg s (exec (.cancel d a) s) d 6 2) ∧
     (∀ m, SMap.find (cur s).eng.slots n = some m → (m.st = .waiting ∨ m.st = .posted) → m.job = jobOf (cur s) →
       after (fun t => ∃ q, SMap.find (cur t).eng.slots n = some q ∧ q.st = .complete ∧ q.status = 2)) ∧
     (∀ m, SMap.find (cur s).eng.slots n = some m →
       (m.st = .complete ∨ m.st = .ordered ∨ m.st = .header ∨ (m.st = .data ∧ (m.isSend = true ∨ m.mkind = .eager))) →
       WritesReg s (exec (.cancel d a) s) d 6 2) ∧
     (∀ m, SMap.find (cur s).eng.slots n = some m → m.st = .data → m.isSend = false → m.mkind ≠ .eager → m.units = none →
       m.job = jobOf (cur s) →
       after (fun t => (cur t).sram = (cur s).sram ∧
         (cur t).msg.outq = (cur s).msg.outq ++
           [(s.cycle + 3, ctlPkt s s.focus.val .abort m.src m.recTag m.group m.seq m.job 0 0)] ∧
         ∃ q, SMap.find (cur t).eng.slots n = some q ∧ q.st = .complete ∧ q.status = 2 ∧ q.dlvLen = 0 ∧ q.todo = []))) ∧
  (∀ (s : State) (a : BitVec 5),
     let quiet (q : Bool) (o : Out) : Prop := TileNext s o (fun t =>
       t = { cur s with keeper := t.keeper, msg := { (cur s).msg with quiesced := q } } ∧
       GoesTo s t.keeper ((cur s).keeper.pc + 4) 1)
     let data := ∃ p ∈ (cur s).eng.slots ++ (cur s).stSlots, p.2.st = .data
     ((cur s).keeper.station = false → TrapsSync s (exec (.mquiesce a) s) 4 (wordOf (.mquiesce a)) 31 0) ∧
     ((cur s).keeper.station = true → bit (kreg s a) 0 = true → quiet false (exec (.mquiesce a) s)) ∧
     ((cur s).keeper.station = true → bit (kreg s a) 0 = false → ¬ data → quiet true (exec (.mquiesce a) s)) ∧
     ((cur s).keeper.station = true → bit (kreg s a) 0 = false → data →
       TileNext s (exec (.mquiesce a) s) (fun t => t.msg.quiesced = true ∧ t.keeper.waiting = some (.mquiesce a) ∧
         t.keeper.pc = (cur s).keeper.pc ∧ SameRegs s t.keeper)))

/-- R346 and R356: ACC.ALLOC returns the lowest bank from which the asked number of banks is free, which it reserves for
its tile, and all ones where there is no such run; a bad operand traps ILLEGAL and a full queue makes the keeper wait;
the lens queries. -/
def Obligations.AccAllocAndLensQueries : Prop :=
  (∀ (s : State) (d a : BitVec 5), (cur s).keeper.station = false →
     let w := kreg s a
     let n := fld w 0 8
     let ok := w &&& ~~~ (maskBits 0 14) = 0 ∧ 1 ≤ n ∧ n ≤ 128 ∧ (bit w 8 = true → 1 ≤ fld w 9 5) ∧
       (bit w 8 = false → fld w 9 5 = 0)
     let c := clusterOf s.focus.val
     let free (t : State) (b : Nat) : Prop := (SMap.getD (lensOf t c).banks b Bank.reset).st = .free
     let run (b : Nat) : Prop := b + n ≤ 128 ∧ ∀ j, j < n → free s (b + j)
     (¬ ok → TrapsSync s (exec (.accAlloc d a) s) 1 w 31 0) ∧
     (ok → 4 ≤ (cur s).eng.lensQ.length → Waits s (exec (.accAlloc d a) s) (.accAlloc d a)) ∧
     (ok → (cur s).eng.lensQ.length < 4 → (∀ b, ¬ run b) →
       ∃ t, exec (.accAlloc d a) s = .next t ∧ RegWritten s (cur t).keeper d (BitVec.allOnes 64) 2 ∧
         t.lenses = s.lenses ∧ (cur t).eng = (cur s).eng) ∧
     (∀ b, ok → (cur s).eng.lensQ.length < 4 → run b → (∀ b', b' < b → ¬ run b') →
       ∃ t, exec (.accAlloc d a) s = .next t ∧ RegWritten s (cur t).keeper d (BitVec.ofNat 64 b) 2 ∧
         (cur t).eng.lensQ.length = (cur s).eng.lensQ.length + 1 ∧
         (∀ x, (SMap.getD (lensOf t c).banks x Bank.reset) =
           if b ≤ x ∧ x < b + n then ⟨.reserved, posOf s.focus.val, 0, none⟩ else SMap.getD (lensOf s c).banks x Bank.reset) ∧
         (lensOf t c).words = (lensOf s c).words)) ∧
  (∀ (s : State) (d a : BitVec 5),
     let n := fld (kreg s a) 0 6
     let b := fld (kreg s a) 0 7
     let l := lensOf s (clusterOf s.focus.val)
     let bank := SMap.getD l.banks b Bank.reset
     WritesReg s (exec (.lqueryStatus d a) s) d (if n = 0 then 0 else vget (cur s).eng.lensStatus n 0) 2 ∧
     TileNext s (exec (.lqueryFault d a) s) (fun t =>
       t = { cur s with keeper := t.keeper,
                        eng := { (cur s).eng with lensFault := (cur s).eng.lensFault &&& ~~~ maskBits 62 2 } } ∧
       RegWritten s t.keeper d (cur s).eng.lensFault 2 ∧ t.keeper.pc = (cur s).keeper.pc + 4) ∧
     (∃ v, WritesReg s (exec (.lqueryBank d a) s) d v 2 ∧
       fld v 0 2 = (match bank.st with | .free => 0 | .reserved => 1 | .sum => 2 | .rank => 3) ∧
       (bank.tile < 8 → fld v 2 3 = bank.tile) ∧
       bit v 7 = bank.owner.isSome ∧ (∀ g, bank.owner = some g → fld v 5 2 = g.toNat) ∧ (bank.owner = none → fld v 5 2 = 0) ∧
       (bank.k < 32 → fld v 8 5 = if bank.st = .rank then bank.k else 0) ∧
       (bank.k < 32 → (bit v 13 = true ↔ ∃ h ∈ l.held, h.1 / 32 = b)) ∧ (bank.k < 32 → fld v 14 50 = 0)))

/-! ## Lamp control by the keeper -/

/-- R69, R297, R298, R299 and R300: FLASH queues the address with its mask; a mask of 0 does nothing; the address is
checked first; LSTART with a legal address starts the STOPPED lamps of the mask at it and no lamp outside the mask
changes; their block is to be read in twelve granules (R299); LSTOP leaves each lamp of its mask STOPPED. That a mask of 0 checks no
address, and that the alignment of an address is checked before its range, are the model's reading (log entry 21). -/
def Obligations.FlashLstartAndLstop : Prop :=
  (∀ (s : State) (a b : BitVec 5),
     let w := kreg s a
     let mask : BitVec 16 := (kreg s b).extractLsb' 0 16
     let limit := Nat.min (fld (cur s).ctrl.sramlim 12 9 * 4096) 0x1F0000
     let fits_ := w &&& 0xFF = 0 ∧ w.toNat + 192 ≤ limit
     let room := if (cur s).keeper.station then (cur s).stFlash = none else (cur s).eng.flashQ.length < 4
     (mask = 0 → OnlyAdvances s (exec (.flash a b) s)) ∧
     (mask ≠ 0 → w &&& 0xFF ≠ 0 → TrapsSync s (exec (.flash a b) s) 3 w 31 0) ∧
     (mask ≠ 0 → w &&& 0xFF = 0 → limit < w.toNat + 192 → TrapsSync s (exec (.flash a b) s) 2 w 31 0) ∧
     (mask ≠ 0 → fits_ → ¬ room → Waits s (exec (.flash a b) s) (.flash a b)) ∧
     (mask ≠ 0 → fits_ → room → TileNext s (exec (.flash a b) s) (fun t =>
       GoesTo s t.keeper ((cur s).keeper.pc + 4) 1 ∧
       t = { cur s with
             keeper := t.keeper
             stFlash := if (cur s).keeper.station then some ⟨w.toNat, mask⟩ else (cur s).stFlash
             eng := if (cur s).keeper.station then (cur s).eng
               else { (cur s).eng with flashQ := (cur s).eng.flashQ ++ [⟨w.toNat, mask⟩] } }))) ∧
  (∀ (s : State) (a b : BitVec 5),
     let w := kreg s a
     let started := BitVec.ofNat 16 (sumN (((List.range 16).filter (fun l =>
       bit (kreg s b) l && (lampAt (cur s) l).st == .stopped)).map (fun l => 2 ^ l)))
     (w &&& 0xF8 = 0 → w.toNat / 256 * 256 + 192 ≤ Nat.min (fld (cur s).ctrl.sramlim 12 9 * 4096) 0x1F0000 →
       TileNext s (exec (.lstart a b) s) (fun t =>
         GoesTo s t.keeper ((cur s).keeper.pc + 4) 1 ∧
         t = { cur s with keeper := t.keeper, act := t.act, lstarts := t.lstarts } ∧
         t.lstarts = (cur s).lstarts ++ (if started = 0 then [] else [⟨started, s.cycle + 6, List.range 12⟩]) ∧
         ∀ l, l < 16 →
           (bit (kreg s b) l = false → lampAt t l = lampAt (cur s) l) ∧
           (bit (kreg s b) l = true → (lampAt (cur s) l).st = .stopped →
             (lampAt t l).st = .running ∧ (lampAt t l).block = w.extractLsb' 8 13 ∧
             (lampAt t l).bundle = w.extractLsb' 0 3 ∧ (lampAt t l).nextAt = s.cycle + 6))) ∧
     (∃ t, exec (.lstop a) s = .next t ∧ SameRegs s (cur t).keeper ∧ (cur t).keeper.pc = (cur s).keeper.pc + 4 ∧
       (cur t).sram = (cur s).sram ∧
       ∀ l, l < 16 → (bit (kreg s a) l = true → (lampAt (cur t) l).st = .stopped) ∧
         (bit (kreg s a) l = false → lampAt (cur t) l = lampAt (cur s) l)))

/-- R301, R302, R304, R87, R100, R227: LJOIN returns the faulted lamps of its mask once every one has ended; LGROUP sets a floor
and ceiling or traps ILLEGAL; LSWAP traps PRIV at job level; at station level it exchanges the lamp sets where every lamp is
STOPPED or FAULTED or a PREEMPT has stopped lamp issue, and traps ILLEGAL elsewhere. That the other bits of ka and kb of an
LGROUP are ignored is the model's reading (log entry 123). -/
def Obligations.LjoinLgroupLswap : Prop :=
  ∀ (s : State) (d a b : BitVec 5),
    let ended (l : Nat) : Prop := (lampAt (cur s) l).ended = true ∧ (lampAt (cur s) l).flight.any InFlight.pending = false
    let all := ∀ l, l < 16 → bit (kreg s a) l = true → ended l
    let g := fld (kreg s a) 0 2
    let f := fld (kreg s b) 0 9
    let c := fld (kreg s b) 16 9
    let sum := f + sumN ((List.range 4).map (fun h => if h = g then 0 else vget (cur s).act.floors h 0))
    let okGroup := f ≤ c ∧ c ≤ 256 ∧ sum ≤ 256 ∧ claimWaits (cur s) = false
    (all → ∃ v, WritesReg s (exec (.ljoin d a) s) d v 1 ∧
      ∀ l, l < 64 → (bit v l = true ↔ l < 16 ∧ bit (kreg s a) l = true ∧ (lampAt (cur s) l).st = .faulted)) ∧
    (¬ all → Waits s (exec (.ljoin d a) s) (.ljoin d a)) ∧
    (okGroup → TileNext s (exec (.lgroup a b) s) (fun t => GoesTo s t.keeper ((cur s).keeper.pc + 4) 1 ∧
      t = { cur s with keeper := t.keeper, act := { (cur s).act with floors := vset (cur s).act.floors g f,
                                                                     ceils := vset (cur s).act.ceils g c } })) ∧
    (¬ okGroup → TrapsSync s (exec (.lgroup a b) s) 1 (wordOf (.lgroup a b)) 31 0) ∧
    ((cur s).keeper.station = false → TrapsSync s (exec .lswap s) 4 (wordOf .lswap) 31 0) ∧
    ((cur s).keeper.station = true → (cur s).lampsStopped = false → (∃ l, l < 16 ∧ (lampAt (cur s) l).ended = false) →
      TrapsSync s (exec .lswap s) 1 (wordOf .lswap) 31 0) ∧
    ((cur s).keeper.station = true →
      ((∀ l, l < 16 → (lampAt (cur s) l).ended = true) ∨ (cur s).lampsStopped = true) →
      TileNext s (exec .lswap s) (fun t => t.act.floors = (cur s).saved.floors ∧ t.act.ceils = (cur s).saved.ceils ∧
        t.act.handoff = (cur s).saved.handoff ∧ t.saved.floors = (cur s).act.floors ∧
        t.saved.handoff = (cur s).act.handoff ∧
        (∀ l, l < 16 → (lampAt t l).ports = (vget (cur s).saved.lamps l Lamp.reset).ports ∧
          (lampAt t l).ptrs = (vget (cur s).saved.lamps l Lamp.reset).ptrs) ∧
        t.lswapUntil = s.cycle + 64 ∧ s.cycle + 64 ≤ t.keeper.issueAt ∧ t.keeper.pc = (cur s).keeper.pc + 4 ∧
        SameRegs s t.keeper))

/-- R303, R49: LSTATE returns the item that its selector names, after 2 clk, and LWRITE stores one where the item is writable
in the unit's present state; a selector with another bit set, one of no item, and an LWRITE of an item that is not writable trap
ILLEGAL with TRAPVAL the selector. What a bundle of the same clk still reads as it was is kept beside it. -/
def Obligations.LstateAndLwrite : Prop :=
  ∀ (s : State) (d a b : BitVec 5) (l : Fin 16),
    let x := lampAt (cur s) l.val
    let t0 := cur s
    let sel (u item idx : Nat) : W64 := BitVec.ofNat 64 (u + item * 2 ^ 8 + idx * 2 ^ 16)
    let readsAs (u item idx : Nat) (P : W64 → Prop) : Prop :=
      kreg s a = sel u item idx → ∃ v, WritesReg s (exec (.lstate d a) s) d v 2 ∧ P v
    let reads (item idx : Nat) (v : W64) : Prop := readsAs l.val item idx (fun w => w = v)
    let noItem (u item idx : Nat) : Prop :=
      kreg s a = sel u item idx → TrapsSync s (exec (.lstate d a) s) 1 (kreg s a) 31 0
    let writes (item : Nat) (f : Lamp → Lamp) : Prop :=
      kreg s a = sel l.val item 0 → TileNext s (exec (.lwrite a b) s) (fun t =>
        GoesTo s t.keeper ((cur s).keeper.pc + 4) 1 ∧
        t = { cur s with keeper := t.keeper, act := t.act } ∧ { lampAt t l.val with old := x.old } = f x ∧
        (∃ o, (lampAt t l.val).old = some o ∧ (x.old = none → o = ⟨x.preds, x.mode, x.gen, x.linkIdx, none⟩)) ∧
        ∀ m, m < 16 → m ≠ l.val → lampAt t m = lampAt (cur s) m)
    let noWrite (u item idx : Nat) : Prop :=
      kreg s a = sel u item idx → TrapsSync s (exec (.lwrite a b) s) 1 (kreg s a) 31 0
    let val := kreg s b
    let dues (u : Nat) : List Nat :=
      ((x.flight.filter (fun o => o.unit == if u = 7 then 8 else u)).map InFlight.due)
        ++ (if u = 7 then ((x.fetched.map Fetched.readyAt).toList.filter (fun n => decide (s.cycle < n))) else [])
    reads 0x00 0 (statusWord x) ∧
    reads 0x01 0 (BitVec.ofNat 64 (x.block.toNat * 256 + x.bundle.toNat)) ∧
    readsAs l.val 0x02 0 (fun v => v.toNat < 2 ^ 40 ∧ ∀ k, k < 4 →
      (vget x.ptrs k none = none → fld v (10 * k) 10 = 0) ∧
      (∀ w, vget x.ptrs k none = some w →
        bit v (10 * k + 9) = true ∧ bit v (10 * k + 8) = w.loan ∧ fld v (10 * k) 8 = w.block % 256)) ∧
    reads 0x03 0 (x.preds.zeroExtend 64) ∧ reads 0x04 0 (x.linkIdx.zeroExtend 64) ∧
    reads 0x05 0 (x.mode.zeroExtend 64) ∧ reads 0x06 0 (x.flags.zeroExtend 64) ∧
    reads 0x07 0 (x.gen.zeroExtend 64) ∧ reads 0x08 0 ((vget t0.signals l.val 0).zeroExtend 64) ∧
    reads 0x09 0 (match x.fetched with | none => 0 | some f => BitVec.ofNat 64 (1 + f.block.toNat * 2 ^ 8)) ∧
    reads 0x0A 0 (match x.rep with
      | none => 0
      | some p => BitVec.ofNat 64 (p.pass + p.n1 * 2 ^ 8 + p.len1 * 2 ^ 16 + p.stride * 2 ^ 20 + p.pos * 2 ^ 25)) ∧
    reads 0x0B 0 (x.group.zeroExtend 64) ∧
    (∀ n, n < 32 → ∀ h, h < 2 →
      reads 0x10 (32 * h + n) (((vreg t0 l.val n).getD 0).extractLsb' (64 * h) 64)) ∧
    (∀ p, p < 32 → ∀ h, h < 2 → reads 0x11 (32 * h + p) ((vget x.ports p 0).extractLsb' (64 * h) 64)) ∧
    (∀ k, k < 2 → ∀ h, h < 2 → reads 0x12 (2 * h + k)
      (((x.fifo[k]?).map (fun e => e.val.extractLsb' (64 * h) 64)).getD 0)) ∧
    (x.paused = false → ∀ u, u < 8 → readsAs l.val 0x13 u (fun v => v.toNat < 2 ^ 12 ∧
      (dues u = [] → v = 0) ∧
      (dues u ≠ [] → fld v 0 4 = Nat.min (dues u).length 15 ∧
        (∀ n ∈ dues u, fld v 4 8 ≤ n - s.cycle) ∧ (∃ n ∈ dues u, fld v 4 8 = Nat.min (n - s.cycle) 255)))) ∧
    readsAs 16 0x00 0 (fun v => v = t0.eng.copyFault) ∧
    readsAs 16 0x01 0 (fun v => v = BitVec.ofNat 64 (Nat.min t0.eng.copyQ.length 3
      + (match t0.copyRun with | none => 0 | some c => 4 + c.cmd.tout.toNat * 2 ^ 8))) ∧
    readsAs 17 0x00 0 (fun v => v = BitVec.ofNat 64 (phi t0 + reserve t0 * 2 ^ 16 + t0.loanQ.length * 2 ^ 32)) ∧
    (∀ g, g < 4 →
      readsAs 17 0x01 g (fun v => v = BitVec.ofNat 64 (floorOf t0 g + ceilOf t0 g * 2 ^ 16 + held t0 g * 2 ^ 32)) ∧
      readsAs 17 0x02 g (fun v => v = BitVec.ofNat 64 ((queueOf t0 g).length
        + ((t0.takeQ ++ t0.loanQ).filter (fun q => q.kind == .take && q.group == g)).length * 2 ^ 8
        + (t0.passQ.filter (fun q => q.group == g)).length * 2 ^ 16))) ∧
    (∀ item idx, item < 256 → idx < 256 →
      (0x14 ≤ item ∨ (0x0C ≤ item ∧ item < 0x10) ∨ (item < 0x0C ∧ 0 < idx) ∨ (item < 0x12 ∧ 64 ≤ idx) ∨
        (item = 0x12 ∧ 4 ≤ idx) ∨ (item = 0x13 ∧ 8 ≤ idx) → noItem l.val item idx) ∧
      (2 ≤ item ∨ 0 < idx → noItem 16 item idx) ∧
      (3 ≤ item ∨ 4 ≤ idx ∨ (item = 0 ∧ 0 < idx) → noItem 17 item idx) ∧
      (∀ u, 18 ≤ u → u < 32 → noItem u item idx ∧ noWrite u item idx) ∧
      noWrite 17 item idx ∧ (0 < item ∨ 0 < idx → noWrite 16 item idx) ∧
      (item ∈ [0x00, 0x02, 0x08, 0x09, 0x0A, 0x11, 0x12, 0x13] ∨ (item < 0x10 ∧ (0x0C ≤ item ∨ 0 < idx)) ∨ 0x14 ≤ item ∨
        (item = 0x10 ∧ 64 ≤ idx) → noWrite l.val item idx)) ∧
    writes 0x03 (fun x => { x with preds := (val.extractLsb' 0 8 &&& 0xFE) ||| 1 }) ∧
    writes 0x04 (fun x => { x with linkIdx := val.extractLsb' 0 4 }) ∧
    writes 0x05 (fun x => { x with mode := val.extractLsb' 0 32 &&& 3 }) ∧
    writes 0x06 (fun x => { x with flags := val.extractLsb' 0 32 &&& 0x3F }) ∧
    writes 0x07 (fun x => { x with gen := if val.extractLsb' 0 32 = 0 then 0x2545F491 else val.extractLsb' 0 32 }) ∧
    (x.st = .stopped → writes 0x01 (fun x => { x with block := val.extractLsb' 8 13, bundle := val.extractLsb' 0 3 })) ∧
    (x.st ≠ .stopped → noWrite l.val 0x01 0) ∧
    (x.st = .stopped → (∀ k, k < 4 → vget x.ptrs k none = none) → writes 0x0B (fun x => { x with group := val.extractLsb' 0 2 })) ∧
    ((x.st ≠ .stopped ∨ ∃ k w, k < 4 ∧ vget x.ptrs k none = some w) → noWrite l.val 0x0B 0) ∧
    (∀ n, n < 32 → ∀ h, h < 2 →
      (∀ v, vreg t0 l.val n = some v → kreg s a = sel l.val 0x10 (32 * h + n) →
        TileNext s (exec (.lwrite a b) s) (fun t => GoesTo s t.keeper ((cur s).keeper.pc + 4) 1 ∧
          t = { cur s with keeper := t.keeper, act := t.act, ws := t.ws, sram := t.sram, ckpt := t.ckpt, ctrl := t.ctrl } ∧
          t.ctrl = { t0.ctrl with events := t.ctrl.events } ∧ SramButLog t0 t ∧
          (t0.ckpt = none → t.ckpt = none ∧ t.ctrl = t0.ctrl) ∧
          (∃ v', vreg t l.val n = some v' ∧ v'.extractLsb' (64 * h) 64 = val ∧
            v'.extractLsb' (64 * (1 - h)) 64 = v.extractLsb' (64 * (1 - h)) 64) ∧
          (∀ w, (lampAt t0 l.val).bank (n / 8) = some w → ∀ j, j ≠ w.block * 8 + n % 8 →
            SMap.getD t.ws j 0 = SMap.getD t0.ws j 0) ∧
          lampAt t l.val = { x with old := (lampAt t l.val).old, fills := x.fills ++ [(4 + n / 8, s.cycle + 1)] } ∧
          ∀ m, m < 16 → m ≠ l.val → lampAt t m = lampAt (cur s) m)) ∧
      (vreg t0 l.val n = none → noWrite l.val 0x10 (32 * h + n))) ∧
    (kreg s a = sel 16 0x00 0 → TileNext s (exec (.lwrite a b) s) (fun t => GoesTo s t.keeper ((cur s).keeper.pc + 4) 1 ∧
      t = { cur s with keeper := t.keeper, eng := { t0.eng with copyFault := if val = 0 then 0 else t0.eng.copyFault } })) ∧
    (kreg s a &&& ~~~ (0xFFFF1F : W64) ≠ 0 →
      TrapsSync s (exec (.lstate d a) s) 1 (kreg s a) 31 0 ∧ TrapsSync s (exec (.lwrite a b) s) 1 (kreg s a) 31 0)

/-! ## Beacons, turns, windows: the keeper's side -/

/-- R388, R392, R394, R396 and R397: VOTE and BAR arrive once at the instance of their epoch, with the value and the time-out
as they stand at issue, and wait; a VOTE or BAR whose epoch is not the domain's completes STALE, and at a broken domain
TIMEOUT, each with the domain's epoch, and nothing is contributed; the TIMEOUT shows the arrival record of the break. -/
def Obligations.CollectivesArriveOrCompleteAtOnce : Prop :=
  (∀ (s : State) (d a b : BitVec 5) (x : BitVec 2),
     let g := x.toNat
     let y := domOf s s.focus.val g
     fld (vget (cur s).ctrl.dom g 0) 59 3 ≠ 0 → (∀ p ∈ y.parts, p.tile ≠ s.focus) → (∀ p ∈ y.arrivals, p.tile ≠ s.focus) →
     y.broken = false →
     ∀ p ∈ collectiveRows s d a b x, p.2.2.1 = y.epoch → (y.kind = 0 ∨ y.kind = p.2.1) →
       ∃ t arr, exec p.1 s = .next t ∧ StandsAt s t p.1 ∧
         (domOf t s.focus.val g).arrivals = y.arrivals ++ [arr] ∧ (domOf t s.focus.val g).kind = p.2.1 ∧
         (domOf t s.focus.val g).epoch = y.epoch ∧
         arr.tile = s.focus ∧ arr.reg = g ∧ arr.values = [p.2.2.2] ∧ arr.limit = fld (cur s).ctrl.barto 0 48) ∧
  (∀ (s : State) (d a b : BitVec 5) (x : BitVec 2),
     let g := x.toNat
     let y := domOf s s.focus.val g
     fld (vget (cur s).ctrl.dom g 0) 59 3 ≠ 0 → (∀ p ∈ y.parts, p.tile ≠ s.focus) →
     ∀ p ∈ collectiveRows s d a b x,
       (p.2.2.1 ≠ y.epoch →
         WritesRegClosing s (exec p.1 s) d (BitVec.ofNat 64 (8 * 2 ^ 60 + y.epoch.toNat * 2 ^ 32)) 1) ∧
       (p.2.2.1 = y.epoch → y.broken = true → TileNext s (exec p.1 s) (fun t =>
         t = { cur s with keeper := t.keeper, ckpt := none, ctrl := { (cur s).ctrl with arrival := t.ctrl.arrival } } ∧
         RegWritten s t.keeper d (BitVec.ofNat 64 (5 * 2 ^ 60 + y.epoch.toNat * 2 ^ 32)) 1 ∧
         SameMode (cur s).keeper t.keeper ∧ t.keeper.pc = (cur s).keeper.pc + 4 ∧
         ∀ k, k < 16 → k < y.record.length → vget t.ctrl.arrival k 0 = y.record.getD k 0)))

/-- R389, R390, R391 and R398: ANN announces its word and ANN.L listens, each to a buffer of one 8-byte entry a member;
BARX asks for a reset to its epoch; each waits for its window. At a register of level 0 every beacon instruction traps
ILLEGAL; a beacon instruction that stands at its instance takes the result word once it has been delivered. -/
def Obligations.AnnouncementsResetsAndResults : Prop :=
  (∀ (s : State) (d a b : BitVec 5) (x : BitVec 2),
     let g := x.toNat
     let r := s.focus.val
     let y := domOf s r g
     let level := fld (vget (cur s).ctrl.dom g 0) 59 3
     let buf := kreg s b
     let here := buf.toNat % 8 = 0 ∧
       inBounds (cur s) (cur s).keeper.station buf.toNat (8 * (domMembers s r g).length) = true
     (level ≠ 0 → (∀ p ∈ y.parts, p.tile ≠ s.focus) →
       (here → ∃ t w, exec (.ann d a b x) s = .next t ∧ StandsAt s t (.ann d a b x) ∧
         (domOf t r g).anns = y.anns ++ [⟨w, s.focus, (kreg s a).extractLsb' 0 32⟩]) ∧
       (here → ∃ t, exec (.annL d b x) s = .next t ∧ StandsAt s t (.annL d b x) ∧ (domOf t r g).anns = y.anns) ∧
       (∃ t w, exec (.barx d a x) s = .next t ∧ StandsAt s t (.barx d a x) ∧
         (domOf t r g).barx = y.barx ++ [⟨w, s.focus, g, (kreg s a).extractLsb' 0 16⟩])) ∧
     (level = 0 →
       ∀ i ∈ [Instr.ann d a b x, .annL d b x, .barx d a x, .bar d a x, .voteAnd d a b x, .voteOr d a b x,
           .voteMax d a b x, .voteMin d a b x, .voteMaxs d a b x, .voteMins d a b x],
         TrapsSync s (exec i s) 1 (wordOf i) 31 0)) ∧
  (∀ (s : State) (d a b : BitVec 5) (x : BitVec 2) (p : BeaconPart) (w : W64),
     let g := x.toNat
     let y := domOf s s.focus.val g
     let takes (i : Instr) (cls kind : Nat) (e : BitVec 16) (v : W32) (buf : W64) : Prop :=
       partOf y s.focus.val cls = some p → p.kind = kind → p.epoch = e → p.value = v → p.buf = buf →
         p.tile = s.focus → p.cls = cls →
         ∃ t, exec i s = .next t ∧ RegWritten s (cur t).keeper d w 1 ∧ (cur t).keeper.pc = (cur s).keeper.pc + 4 ∧
           (cur t).keeper.waiting = none ∧ partOf (domOf t s.focus.val g) s.focus.val cls = none
     fld (vget (cur s).ctrl.dom g 0) 59 3 ≠ 0 → p.result = some w → p.readyAt ≤ s.cycle → p.phase = false →
       (∀ q ∈ collectiveRows s d a b x, takes q.1 0 q.2.1 q.2.2.1 q.2.2.2 0) ∧
       takes (.ann d a b x) 1 0 0 ((kreg s a).extractLsb' 0 32) (kreg s b) ∧
       takes (.annL d b x) 1 1 0 0 (kreg s b) ∧
       ((cur s).keeper.waiting = some (.barx d a x) → takes (.barx d a x) 2 2 ((kreg s a).extractLsb' 0 16) 0 0))

/-- R200, R418, R419: TURN and TURN.W need CAPS.linkctl; a bad link or sector, or a link that is DOWN, answers FAULT; otherwise
the request enters the queue of the tile's end. -/
def Obligations.TurnRequests : Prop :=
  ∀ (s : State) (d a : BitVec 5), (cur s).keeper.ticket = none → (cur s).keeper.waiting = none →
    (cur s).keeper.resume = none →
    let l := fld (kreg s a) 0 4
    let sector := fld (kreg s a) 4 5
    let x := linkOf s l
    let allowed := (cur s).keeper.station = true ∨ bit (cur s).ctrl.caps 0 = true
    let bad := 11 < l ∨ sector < 2 ∨ 14 < sector ∨ x.st = .down
    let endB := atB l (s.focus.val / 256) = true
    let q (y : Link) : List TurnReq := if endB then y.qb else y.qa
    ∀ w : Bool,
      let i := if w then Instr.turnW d a else .turn d a
      (¬ allowed → TrapsSync s (exec i s) 4 (wordOf i) 31 0) ∧
      (allowed → bad → WritesRegClosing s (exec i s) d (BitVec.ofNat 64 (15 * 2 ^ 60)) 1) ∧
      (allowed → ¬ bad → (q x).length < 4 → ∃ t req, exec i s = .next t ∧
        linkOf t l = (if endB then { x with qb := x.qb ++ [req] } else { x with qa := x.qa ++ [req] }) ∧
        req.sector = sector ∧ req.arrived = s.cycle ∧ (∀ m, m ≠ l → linkOf t m = linkOf s m) ∧
        (w = false → RegWritten s (cur t).keeper d 0 1 ∧ (cur t).keeper.pc = (cur s).keeper.pc + 4) ∧
        (w = true → StandsAt s t i ∧ (cur t).keeper.ticket = some req.ticket))

/-- R243, R420, R437 and R439: TURNQ returns the state of a link and its flit counts at once; WINQ waits for the lightship, and
once it has replied returns a window entry of the current or staged table, the generation or an allotment; WINCOMMIT needs
CAPS.wincommit; it enters the commit queue of its job and waits, and once its commit has been served it returns OK with the new generation. -/
def Obligations.LinkAndWindowInstructions : Prop :=
  (∀ (s : State) (d a : BitVec 5),
     let l := fld (kreg s a) 0 4
     let x := linkOf s l
     let n := fld (kreg s a) 0 6
     (∃ v, WritesReg s (exec (.turnq d a) s) d v 2 ∧ (11 < l → v = 0) ∧
       (l ≤ 11 → x.sector < 32 → x.qa.length < 8 → x.qb.length < 8 → targetOf x < 32 →
         fld v 0 5 = x.sector ∧ fld v 32 3 = x.qa.length ∧ fld v 36 3 = x.qb.length ∧ fld v 48 16 = x.turns % 65536 ∧
         fld v 28 4 = linkCode s x)) ∧
     (∃ v, WritesReg s (exec (.turnqTx d a) s) d v 2 ∧ (11 < l → v = 0) ∧
       (l ≤ 11 → fld v 0 40 = x.ab.sent % 2 ^ 40 ∧ fld v 40 24 = min x.ab.resent (2 ^ 24 - 1))) ∧
     (∃ v, WritesReg s (exec (.turnqRx d a) s) d v 2 ∧ (11 < l → v = 0) ∧
       (l ≤ 11 → fld v 0 40 = x.ba.sent % 2 ^ 40 ∧ fld v 40 24 = min x.ba.resent (2 ^ 24 - 1))) ∧
     (∀ i ∈ [Instr.winq d a, .winqSt d a, .winqGen d, .winqAllot d a], (cur s).keeper.ticket = none →
       ∃ t n, exec i s = .next t ∧ StandsAt s t i ∧ (cur t).keeper.ticket = some n ∧ s.cycle < n) ∧
     (∀ i ∈ [Instr.winq d a, .winqSt d a, .winqGen d, .winqAllot d a], ∀ n, (cur s).keeper.ticket = some n → s.cycle < n →
       Waits s (exec i s) i) ∧
     (∀ r, (cur s).keeper.ticket = some r → r ≤ s.cycle →
       WritesReg s (exec (.winqGen d) s) d (cur s).ctrl.wingen 1 ∧
       (∀ j, jobById s (jobOf (cur s)) = some j →
         WritesReg s (exec (.winq d a) s) d (j.cur.getD n 0) 1 ∧
         WritesReg s (exec (.winqSt d a) s) d (j.staged.getD n 0) 1 ∧
         ∀ lo hi, j.allot.find? (fun p => p.1 == fld (kreg s a) 0 3) = some (fld (kreg s a) 0 3, lo, hi) →
           lo < 2 ^ 22 → hi < 2 ^ 22 →
           WritesReg s (exec (.winqAllot d a) s) d (BitVec.ofNat 64 (hi * 2 ^ 32 + lo)) 1))) ∧
  (∀ (s : State) (d : BitVec 5),
     let allowed := (cur s).keeper.station = true ∨ bit (cur s).ctrl.caps 1 = true
     (¬ allowed → TrapsSync s (exec (.wincommit d) s) 4 (wordOf (.wincommit d)) 31 0) ∧
     (allowed → (cur s).keeper.ticket = none → (cur s).keeper.resume = none →
       ∃ t, exec (.wincommit d) s = .next t ∧ StandsAt s t (.wincommit d) ∧
         (cur t).keeper.ticket = some s.ls.tickets ∧ t.ls.tickets = s.ls.tickets + 1 ∧
         ∀ (i : Fin 4) (j : Job), s.ls.jobs[i] = some j → j.id = jobOf (cur s) → j.st ≠ .ended →
           t.ls.jobs[i] = some { j with commits := j.commits ++ [⟨s.focus, s.ls.tickets, s.cycle⟩] }) ∧
     (∀ n j g, allowed → (cur s).keeper.ticket = some n → jobById s (jobOf (cur s)) = some j →
       j.served.find? (fun p => p.1 == n) = some (n, g) →
       ∃ t, exec (.wincommit d) s = .next t ∧ RegWritten s (cur t).keeper d (BitVec.ofNat 64 (65536 + g.toNat)) 1 ∧
         (cur t).keeper.pc = (cur s).keeper.pc + 4 ∧ (cur t).keeper.waiting = none))

/-- R201, R217, R382, R384, R451, R453, R454: a write of a domain register under its rule stores its shape and, at job level, keeps
its phase; one that the rule refuses, or while a beacon operation is outstanding on the register, traps ILLEGAL; ENGSWAP with bit 0
exchanges the engine contexts, without it nothing moves, and the context of an ended job is gone (R451; which contexts are kept
otherwise is log entry 14's choice); LSCMD stores its fields, and a write of 0 acknowledges the lightship's command, the last
acknowledgement of a park or restore making the job PARKED or RUNNING. -/
def Obligations.DomainEngswapAndLscmdRows : Prop :=
  ∀ (s : State) (v : W64),
    let t := cur s
    let ended (j : BitVec 16) : Bool := (jobById s j).any (fun x => x.st == .ended)
    let kept (p : Option (BitVec 16 × EngineCtx)) : Option (BitVec 16 × EngineCtx) := p.filter (fun p => !ended p.1)
    let cmd := fld t.ctrl.lscmd 0 4
    let stored : Ctrl := { t.ctrl with lscmd := v &&& (maskBits 16 16 ||| maskBits 0 6) }
    (∀ d : Fin 4,
      let free := beaconOpen s s.focus.val d.val = false ∧ domOk s.focus.val v = true
      (free → ∃ t', exec (.doma d v) s = .next t' ∧
        (∀ p ∈ [(63, 1), (55, 7), (36, 16)], fld (vget (cur t').ctrl.dom d.val 0) p.1 p.2 = fld v p.1 p.2) ∧
        bit (vget (cur t').ctrl.dom d.val 0) 62 = (if t.keeper.station then bit v 62 else bit (vget t.ctrl.dom d.val 0) 62) ∧
        cur t' = { t with ctrl := { t.ctrl with dom := (cur t').ctrl.dom } } ∧
        (∀ e, e ≠ d.val → vget (cur t').ctrl.dom e 0 = vget t.ctrl.dom e 0) ∧
        (∀ q, q ≠ s.focus.val → tileOf t' q = tileOf s q) ∧ t'.lenses = s.lenses ∧ t'.hbm = s.hbm ∧ t'.ls = s.ls) ∧
      (¬ free → TrapsSync s (exec (.doma d v) s) 1 (BitVec.ofNat 64 (0x28 + d.val)) 31 0)) ∧
    (bit v 0 = false → TileNext s (exec (.engswap v) s) (fun u => u = { t with parked := kept t.parked })) ∧
    (bit v 0 = true → t.parked = none →
      TileNext s (exec (.engswap v) s) (fun u => u = { t with eng := EngineCtx.reset, parked := kept (some (jobOf t, t.eng)) })) ∧
    (∀ j e, bit v 0 = true → t.parked = some (j, e) →
      TileNext s (exec (.engswap v) s) (fun u => u = { t with eng := e, parked := u.parked } ∧
        (u.parked = none ∨ u.parked = some (jobOf t, t.eng)) ∧
        (t.eng ≠ EngineCtx.reset → jobOf t ≠ j → u.parked = kept (some (jobOf t, t.eng))))) ∧
    (fld v 0 4 ≠ 0 → TileNext s (exec (.lscmd v) s) (fun u => u = { t with ctrl := stored })) ∧
    (fld v 0 4 = 0 → ∃ u, exec (.lscmd v) s = .next u ∧ (cur u).ctrl.lscmd = stored.lscmd ∧ (cur u).keeper = t.keeper ∧
      (cur u).eng = t.eng ∧ (cmd ≠ 2 → cur u = { t with ctrl := stored }) ∧ u.focus = s.focus ∧
      (∀ q, q ≠ s.focus.val → tileOf u q = tileOf s q) ∧ u.lenses = s.lenses ∧ u.hbm = s.hbm ∧
      ∀ (i : Fin 4) (j : Job), s.ls.jobs[i] = some j →
        (cmd ≠ 1 → cmd ≠ 2 → u.ls.jobs[i] = some j) ∧
        (s.focus.val ∉ j.toAck → u.ls.jobs[i] = some j) ∧
        (cmd = 1 → j.toAck = [s.focus.val] → u.ls.jobs[i] = some { j with toAck := [], st := .parked }) ∧
        (cmd = 2 → j.toAck = [s.focus.val] →
          u.ls.jobs[i] = some { j with toAck := [], st := .running, saveBase := none }) ∧
        (∀ q, cmd = 1 ∨ cmd = 2 → s.focus.val ∈ j.toAck → q ∈ j.toAck → q ≠ s.focus.val →
          u.ls.jobs[i] = some { j with toAck := j.toAck.filter (fun x => x != s.focus.val) }))

/-! ## Lamp operations -/

/-- R135 to R137, R138 and R139: the lane operations of `ia` and `ib`, 1 clk to `.o`; sums and differences wrap, the
saturating forms clamp, a shift by the lane width or more leaves 0 or the sign, and nothing sets a flag; the operations
on all 128 bits and on lanes of 64 bits. -/
def Obligations.LampIntegerOperations : Prop :=
  (∀ (s : State) (u : IntUnit) (w : LaneW),
     let n := LaneW.bits w
     let x := opX u s.bundle
     let y := s.bundle.t
     let k := IntUnit.num u
     let gives (i : Instr) (f : BitVec n → BitVec n → BitVec n) : Prop :=
       DeliversOne s (exec i s) k 1 (4 * k) (Lanes n f x y)
     let clampS (z : Int) : BitVec n := BitVec.ofInt n (max (-(2 ^ (n - 1) : Int)) (min (2 ^ (n - 1) - 1) z))
     let clampZ (z : Int) : BitVec n := BitVec.ofInt n (max 0 (min (2 ^ n - 1) z))
     gives (.iaAdd u w) (fun a b => a + b) ∧
     gives (.iaSub u w) (fun a b => a - b) ∧
     gives (.addsS u w) (fun a b => clampS (a.toInt + b.toInt)) ∧
     gives (.addsZ u w) (fun a b => clampZ (a.toNat + b.toNat)) ∧
     gives (.subsS u w) (fun a b => clampS (a.toInt - b.toInt)) ∧
     gives (.subsZ u w) (fun a b => clampZ (a.toNat - b.toNat)) ∧
     gives (.minS u w) (fun a b => if b.toInt < a.toInt then b else a) ∧
     gives (.minZ u w) (fun a b => if b.toNat < a.toNat then b else a) ∧
     gives (.maxS u w) (fun a b => if a.toInt < b.toInt then b else a) ∧
     gives (.maxZ u w) (fun a b => if a.toNat < b.toNat then b else a) ∧
     gives (.iaShl u w) (fun a c => if n ≤ c.toNat then 0 else BitVec.ofNat n (a.toNat * 2 ^ c.toNat)) ∧
     gives (.shrZ u w) (fun a c => if n ≤ c.toNat then 0 else BitVec.ofNat n (a.toNat / 2 ^ c.toNat)) ∧
     gives (.shrS u w) (fun a c => BitVec.ofInt n (a.toInt / 2 ^ min c.toNat (n - 1)))) ∧
  (∀ (s : State) (u : IntUnit),
     let x := opX u s.bundle
     let y := s.bundle.t
     let k := IntUnit.num u
     let gives (i : Instr) (P : V128 → Prop) : Prop := DeliversOne s (exec i s) k 1 (4 * k) P
     gives (.andB128 u) (fun v => v = x &&& y) ∧
     gives (.orB128 u) (fun v => v = x ||| y) ∧
     gives (.xorB128 u) (fun v => v = x ^^^ y) ∧
     gives (.andnB128 u) (fun v => v = x &&& ~~~ y) ∧
     gives (.notB128 u) (fun v => v = ~~~ y) ∧
     gives (.movB128 u) (fun v => v = y) ∧
     gives (.addS64 u) (Lanes 64 (fun a b => a + b) x y) ∧
     gives (.subS64 u) (Lanes 64 (fun a b => a - b) x y))

/-- R140 to R146: the operations of `ib` alone: products and wide products after 3 clk, bit counts, permutations, broadcast and
interleaving after 1. -/
def Obligations.LampIbOperations : Prop :=
  ∀ (s : State) (w : LaneW) (w32 : Bool),
    let n := LaneW.bits w
    let x := s.bundle.ibA
    let y := s.bundle.t
    let z := s.bundle.ibB
    let gives (i : Instr) (P : V128 → Prop) : Prop := DeliversOne s (exec i s) 1 1 4 P
    let pick (m : Nat) (v : V128) : Prop := ∀ i, i < 128 / m →
      let sel := (lane x m i).toNat
      let j := sel % (2 * (128 / m))
      lane v m i = if 2 ^ (m - 1) ≤ sel then 0 else if j < 128 / m then lane y m j else lane z m (j - 128 / m)
    let zip (m lo : Nat) (v : V128) : Prop := ∀ i, i < 64 / m →
      lane v m (2 * i) = lane y m (lo + i) ∧ lane v m (2 * i + 1) = lane z m (lo + i)
    let m := if w32 then 32 else 16
    DeliversOne s (exec (.ibMul w) s) 1 3 4 (Lanes n (fun a b => a * b) x y) ∧
    (∃ v v', Delivers s (exec (.mulwS w) s) 1 3 [(4, v), (5, v')] 0 ∧ ∀ i, i < 64 / n →
      (lane v (2 * n) i).toInt = (lane x n i).toInt * (lane y n i).toInt ∧
      (lane v' (2 * n) i).toInt = (lane x n (64 / n + i)).toInt * (lane y n (64 / n + i)).toInt) ∧
    (∃ v v', Delivers s (exec (.mulwZ w) s) 1 3 [(4, v), (5, v')] 0 ∧ ∀ i, i < 64 / n →
      (lane v (2 * n) i).toNat = (lane x n i).toNat * (lane y n i).toNat ∧
      (lane v' (2 * n) i).toNat = (lane x n (64 / n + i)).toNat * (lane y n (64 / n + i)).toNat) ∧
    portOf .popcB32 = some 0x278 ∧ portOf .bcastB32 = some 0x27B ∧
    gives .popcB32 (fun v => ∀ i, i < 4 →
      (lane v 32 i).toNat = ((List.finRange 32).filter (fun j => (lane y 32 i).getLsbD j.val)).length) ∧
    gives .permB8 (pick 8) ∧
    gives .permB32 (pick 32) ∧
    gives .bcastB32 (fun v => ∀ i, i < 4 → lane v 32 i = lane y 32 ((lane x 32 0).toNat % 4)) ∧
    gives (.zipl w32) (zip m 0) ∧
    gives (.ziph w32) (zip m (64 / m))

/-- R147, R149 to R152: integer compares give lanes of all ones or zeros; any, all, select, the predicate operations and the
lane masks. -/
def Obligations.LampPredicateOperations : Prop :=
  ∀ s : State,
    let x := s.bundle.prA
    let y := s.bundle.t
    let z := s.bundle.prB
    let gives (i : Instr) (P : V128 → Prop) : Prop := DeliversOne s (exec i s) 6 1 24 P
    let allOr (P : Prop) (v : V128) : Prop := (P → v = BitVec.allOnes 128) ∧ (¬ P → v = 0)
    let mask (n : Nat) (v : V128) : Prop := ∀ i, i < 128 / n →
      lane v n i = if (lane y 32 0).getLsbD (i + (lane x 32 0).toNat % 32) then BitVec.allOnes n else 0
    (∀ ty n sg, CmpType.split ty = .inl (n, sg) →
      let val (a : BitVec n) : Int := if sg then a.toInt else a.toNat
      let cmp (P : Int → Int → Prop) (v : V128) : Prop := ∀ i, i < 128 / n →
        (P (val (lane x n i)) (val (lane y n i)) → lane v n i = BitVec.allOnes n) ∧
        (¬ P (val (lane x n i)) (val (lane y n i)) → lane v n i = 0)
      gives (.cmpEq ty) (cmp (· = ·)) ∧ gives (.cmpNe ty) (cmp (· ≠ ·)) ∧ gives (.cmpLt ty) (cmp (· < ·)) ∧
      gives (.cmpLe ty) (cmp (· ≤ ·))) ∧
    gives .anyB32 (allOr (∃ i, i < 4 ∧ lane y 32 i ≠ 0)) ∧
    gives .allB32 (allOr (∀ i, i < 4 → lane y 32 i ≠ 0)) ∧
    portOf .selB128 = some 0x3A6 ∧
    gives .selB128 (fun v => ∀ i, i < 128 → v.getLsbD i = if x.getLsbD i then y.getLsbD i else z.getLsbD i) ∧
    gives .pand (allOr (x.getLsbD 0 = true ∧ y.getLsbD 0 = true)) ∧
    gives .por (allOr (x.getLsbD 0 = true ∨ y.getLsbD 0 = true)) ∧
    gives .pxor (allOr (x.getLsbD 0 ≠ y.getLsbD 0)) ∧
    gives .pnot (allOr (y.getLsbD 0 = false)) ∧
    gives .maskB32 (mask 32) ∧ gives .maskB16 (mask 16) ∧ gives .maskB8 (mask 8)

/-- R24, R25, R46, R50 to R59, R163, R164: what one lane of an `fm` operation, of `sf` or of a conversion yields. A finite result is the exact
one rounded once by its mode, with the flags of its rounding (R46, R56, R60); past the largest finite value it is infinity or that
value by the mode for arithmetic, a replacement or a trap for a conversion (R51 to R54); a NaN result keeps sign and payload
and is quiet, the first NaN among addend, a and b (R57); 0 times infinity, and infinity less infinity, are the canonical NaN with
invalid; an exact zero sum of opposite signs is -0 in RDN alone, and a zero product takes the exclusive OR of the signs in every
mode (R58); subnormals go to zero where ftz_daz says so (R59); `sf` gives the table of R164, the rounded reciprocal, root and
reciprocal root, the powers of two of whole numbers and the logarithms of powers of two (R163). -/
def Obligations.FloatResults : Prop :=
  -- rounding (R46, R50) and the largest finite value
  (∀ f ∈ [fp32, fp16, bf16, e4m3, e5m2, e2m1], ∀ (c m : Nat) (s : Bool) (e : Int), 0 < m →
     RoundedFin f c s (exactly (finRat s m e)) (f.roundFin (rndOf c) s m e).1 (f.roundFin (rndOf c) s m e).2 ∧
     (f ∈ [fp32, fp16, bf16] → RoundedArith f c s (exactly (finRat s m e)) (f.roundArith (rndOf c) s m e))) ∧
  (∀ (w : W32) (s : Bool) (m : Nat) (e q : Int), e < q →
     let k := (q - e).toNat
     let d := Nat.min k 32
     let hi := w.toNat / 2 ^ (32 - d) < m % 2 ^ k / 2 ^ (k - d)
     (hi → (roundAt (.sr w) s m e q).1 = m / 2 ^ k + 1) ∧ (¬ hi → (roundAt (.sr w) s m e q).1 = m / 2 ^ k)) ∧
  -- NaNs, subnormals
  (∀ (s : Bool) (g m : Nat),
     (∀ f ∈ [fp32, fp16, bf16], f.decode (f.quietNan s g m) =
        .nan s ((if m ≤ f.m then g * 2 ^ (f.m - m) else g / 2 ^ (m - f.m)) % 2 ^ (f.m - 1) + 2 ^ (f.m - 1)) f.m false) ∧
     e4m3.quietNan s g m = e4m3.signBit s + 0x7F ∧ e5m2.quietNan s g m = e5m2.signBit s + 0x7E) ∧
  fp32.canonNan = 0x7FC00000 ∧ fp16.canonNan = 0x7E00 ∧ bf16.canonNan = 0x7FC0 ∧
  (∀ f ∈ [fp32, fp16, bf16, e4m3, e5m2, e2m1], ∀ x fl : Nat, x < 2 ^ f.width →
     let sub := ∃ s n, f.decode x = .fin s n f.eminQ ∧ 0 < n ∧ n < 2 ^ f.m
     f.decodeDaz false x = f.decode x ∧ f.ftz false x fl = (x, fl) ∧
     (sub → f.decodeDaz true x = .fin (f.decode x).sign 0 f.eminQ ∧ f.ftz true x fl = (f.signBit (f.decode x).sign, fl ||| 8 ||| 16)) ∧
     (¬ sub → f.decodeDaz true x = f.decode x ∧ f.ftz true x fl = (x, fl))) ∧
  -- a lane of `fm`
  (∀ f ∈ [fp32, fp16, bf16], ∀ (c : Nat) (ftz sp sc : Bool) (x y : FVal) (z : Option FVal),
     let out := f.fmLane (rndOf c) ftz sp sc x y z
     let ops := z.toList ++ [x, y]
     let zi := (x.isZero = true ∧ y.isInf = true) ∨ (x.isInf = true ∧ y.isZero = true)
     let sgn (b : Bool) : Rat := if b then -1 else 1
     let ps := xor (xor x.sign y.sign) sp
     let rounded (t : Rat) : Prop := ∀ b : Bool, (b = true ↔ t < 0) →
       ∃ p, RoundedArith f c b (exactly t) p ∧ out = f.ftz ftz p.1 p.2
     (∀ s g m q, ops.find? FVal.isNan = some (.nan s g m q) →
        out.1 = f.quietNan s g m ∧ ((zi ∨ ∃ v ∈ ops, v.isSig = true) → out.2 = 1) ∧
        (¬ (zi ∨ ∃ v ∈ ops, v.isSig = true) → out.2 = 0)) ∧
     ((∀ v ∈ ops, v.isNan = false) →
        (zi → out = (f.canonNan, 1)) ∧
        (¬ zi → x.isInf = true ∨ y.isInf = true →
          (∀ s, z = some (.inf s) → xor s sc ≠ ps → out = (f.canonNan, 1)) ∧
          ((∀ s, z = some (.inf s) → xor s sc = ps) → out = (f.signBit ps + f.infMag, 0))) ∧
        (∀ s, x.isInf = false → y.isInf = false → z = some (.inf s) → out = (f.signBit (xor s sc) + f.infMag, 0)) ∧
        (∀ a b, IsNum x a → IsNum y b →
          (z = none → (a * b ≠ 0 → rounded (sgn sp * (a * b))) ∧ (a * b = 0 → out = (f.signBit ps, 0))) ∧
          (∀ w d, z = some w → IsNum w d →
            let t := sgn sp * (a * b) + sgn sc * d
            (t ≠ 0 → rounded t) ∧
            (t = 0 → ps = xor w.sign sc → out = (f.signBit ps, 0)) ∧
            (t = 0 → ps ≠ xor w.sign sc → out = (f.signBit (decide (c % 4 = 2)), 0)))))) ∧
  -- conversions
  (∀ f ∈ [fp32, fp16, bf16, e4m3, e5m2, e2m1], ∀ (src : NumTy) (c : Nat) (trap ftz : Bool),
     let conv (v : FVal) : Conv := toFloat src f (rndOf c) trap ftz v
     let lost (o : Conv) (v fl : Nat) : Prop :=
       (trap = true → o.trap = true) ∧ (trap = false → o = ⟨v, fl ||| 32 ||| 16, false⟩)
     (∀ s g m q, (f ≠ e2m1 → conv (.nan s g m q) = ⟨f.quietNan s g m, if q then 1 else 0, false⟩) ∧
       (f = e2m1 → lost (conv (.nan s g m q)) 7 (if q then 1 else 0))) ∧
     (∀ s, (f = e4m3 ∨ f = e2m1 → lost (conv (.inf s)) (f.signBit s + f.maxMag) 0) ∧
       (f = fp16 ∨ f = bf16 ∨ f = e5m2 → src = .flt fp32 →
         conv (.inf s) = if trap then ⟨f.signBit s + f.infMag, 0, false⟩ else ⟨f.signBit s + f.maxMag, 32 + 16, false⟩) ∧
       (f = fp32 → conv (.inf s) = ⟨f.signBit s + f.infMag, 0, false⟩)) ∧
     (∀ s e, conv (.fin s 0 e) = ⟨f.signBit s, 0, false⟩) ∧
     (∀ s m e, 0 < m → ∃ o fl, RoundedFin f c s (exactly (finRat s m e)) o fl ∧
       (∀ mag, o = some mag → conv (.fin s m e) = ⟨(f.ftz ftz (f.signBit s + mag) fl).1, (f.ftz ftz (f.signBit s + mag) fl).2, false⟩) ∧
       (o = none → lost (conv (.fin s m e)) (f.signBit s + f.maxMag) 0))) ∧
  (∀ (signed : Bool) (w c : Nat) (trap : Bool), 0 < w →
     let conv (v : FVal) : Conv := toInt signed w (rndOf c) trap v
     let lo : Int := if signed then -((2 ^ (w - 1) : Nat) : Int) else 0
     let hi : Int := if signed then ((2 ^ (w - 1) : Nat) : Int) - 1 else ((2 ^ w : Nat) : Int) - 1
     let enc (x : Int) : Nat := (BitVec.ofInt w x).toNat
     let lost (o : Conv) (v : Nat) : Prop :=
       (trap = true → o.trap = true) ∧ (trap = false → o = ⟨v, 1 ||| 32 ||| 16, false⟩)
     (∀ s g m q, lost (conv (.nan s g m q)) 0) ∧
     (∀ s, lost (conv (.inf s)) (enc (if s then lo else hi))) ∧
     (∀ v a, IsNum v a → ∃ n : Int, RoundsTo Whole EvenWhole c (exactly a) n ∧
       (lo ≤ n ∧ n ≤ hi → (conv v).bits = enc n ∧ (conv v).trap = false ∧ (a = n → (conv v).flags = 0) ∧ (a ≠ n → (conv v).flags = 16)) ∧
       (n < lo ∨ hi < n → lost (conv v) (enc (if a < 0 then lo else hi))))) ∧
  -- a lane of `sf`
  (∀ (ftz : Bool) (x : Nat),
     let v := fp32.decodeDaz ftz x
     let out (op : SfOp) : Nat × Nat := sfLane op ftz x
     let rounded (op : SfOp) (y : Exact) : Prop := ∃ p, RoundedArith fp32 0 (op == .rcp && v.sign) y p ∧ out op = fp32.ftz ftz p.1 p.2
     (∀ s g m q, v = .nan s g m q → ∀ op, out op = (fp32.quietNan s g m, if q then 1 else 0)) ∧
     (v = .inf true → out .rcp = (0x80000000, 0) ∧ out .sqrt = (0x7FC00000, 1) ∧ out .rsqrt = (0x7FC00000, 1) ∧ out .exp2 = (0, 0) ∧
       out .log2 = (0x7FC00000, 1)) ∧
     (v = .inf false → out .rcp = (0, 0) ∧ out .sqrt = (0x7F800000, 0) ∧ out .rsqrt = (0, 0) ∧ out .exp2 = (0x7F800000, 0) ∧
       out .log2 = (0x7F800000, 0)) ∧
     (v.isZero = true →
       out .rcp = (fp32.signBit v.sign + 0x7F800000, 2) ∧ out .sqrt = (fp32.signBit v.sign, 0) ∧
       out .rsqrt = (fp32.signBit v.sign + 0x7F800000, 2) ∧ out .exp2 = (0x3F800000, 0) ∧ out .log2 = (0xFF800000, 2)) ∧
     (∀ a, IsNum v a → a ≠ 0 →
       rounded .rcp (exactly (1 / a)) ∧
       (a < 0 → out .sqrt = (0x7FC00000, 1) ∧ out .rsqrt = (0x7FC00000, 1) ∧ out .log2 = (0x7FC00000, 1)) ∧
       (0 < a → rounded .sqrt (rootOf a) ∧ rounded .rsqrt (rootUnder a)) ∧
       (∀ n : Int, a = n → rounded .exp2 (exactly (twoPow n))) ∧
       (∀ n : Int, a = twoPow n → (n = 0 → out .log2 = (0, 0)) ∧
         (n ≠ 0 → ∃ p, RoundedArith fp32 0 (decide (n < 0)) (exactly n) p ∧ out .log2 = fp32.ftz ftz p.1 p.2))))

/-- R59 to R61, R148 and R156 to R164: a float operation of `fm`, `sf` or `pr` delivers lane by lane the result of its
format, with the OR of the lanes' flags, after 4, 6 or 1 clk; with INVALID trapped and raised, it faults INVALID and only
the flag stands; a float compare treats both zeros as equal, a NaN makes every condition but ne false; with INVALID
trapped and raised it faults. -/
def Obligations.LampFloatOperationsAndCompares : Prop :=
  (∀ (s : State) (ty : FmType) (op : SfOp),
     let lamp := lampAt (tileOf s s.bundle.tile.val) s.bundle.lamp.val
     let f := FmType.fmt ty
     let n := f.width
     let daz := lamp.mode.getLsbD 0
     let rnd := rndOf (fld (tileOf s s.bundle.tile.val).ctrl.rndmode 0 2)
     let num (v : V128) (i : Nat) : Nat := (lane v n i).toNat
     let dec (v : V128) (i : Nat) : FVal := f.decodeDaz daz (num v i)
     let a := s.bundle.fmA
     let b := s.bundle.fmB
     let y := s.bundle.t
     let gives (i : Instr) (unit lat port m : Nat) (r : Nat → Nat × Nat) : Prop :=
       let flags := orAll ((List.range (128 / m)).map (fun j => (r j).2))
       (lamp.mode.getLsbD 1 = true ∧ flags % 2 = 1 → FaultsLamp s (exec i s) 13) ∧
       (¬ (lamp.mode.getLsbD 1 = true ∧ flags % 2 = 1) →
         ∃ v, Delivers s (exec i s) unit lat [(port, v)] flags ∧ ∀ j, j < 128 / m → lane v m j = BitVec.ofNat m (r j).1)
     let fm (i : Instr) (r : Nat → Nat × Nat) : Prop := gives i 2 4 8 n r
     let sf : Instr := match op with
       | .rcp => .rcp | .sqrt => .sqrt | .rsqrt => .rsqrt | .exp2 => .exp2 | .log2 => .log2
     fm (.fma ty) (fun j => f.fmLane rnd daz false false (dec a j) (dec b j) (some (dec y j))) ∧
     fm (.fms ty) (fun j => f.fmLane rnd daz false true (dec a j) (dec b j) (some (dec y j))) ∧
     fm (.fnma ty) (fun j => f.fmLane rnd daz true false (dec a j) (dec b j) (some (dec y j))) ∧
     fm (.fnms ty) (fun j => f.fmLane rnd daz true true (dec a j) (dec b j) (some (dec y j))) ∧
     fm (.fmAdd ty) (fun j => f.fmLane rnd daz false false (dec a j) oneVal (some (dec y j))) ∧
     fm (.fmSub ty) (fun j => f.fmLane rnd daz false true (dec a j) oneVal (some (dec y j))) ∧
     fm (.fmMul ty) (fun j => f.fmLane rnd daz false false (dec a j) (dec y j) none) ∧
     fm (.fmMin ty) (fun j => f.minMax false daz (num a j) (num y j)) ∧
     fm (.fmMax ty) (fun j => f.minMax true daz (num a j) (num y j)) ∧
     fm (.fmAbs ty) (fun j => (dazBits f daz (num y j) % 2 ^ (n - 1), 0)) ∧
     fm (.fmNeg ty) (fun j => ((dazBits f daz (num y j) + 2 ^ (n - 1)) % 2 ^ n, 0)) ∧
     gives sf 3 6 12 32 (fun j => sfLane op daz (lane y 32 j).toNat)) ∧
  (∀ (s : State) (ty : CmpType) (f : Fmt), CmpType.split ty = .inr f →
     let lamp := lampAt (tileOf s s.bundle.tile.val) s.bundle.lamp.val
     let x (i : Nat) : FVal := f.decode (lane s.bundle.prA f.width i).toNat
     let y (i : Nat) : FVal := f.decode (lane s.bundle.t f.width i).toNat
     let cmp (i : Instr) (P : FVal → FVal → Bool) (quiet : Bool) : Prop :=
       let inv := ∃ j, j < 128 / f.width ∧
         ((x j).isSig = true ∨ (y j).isSig = true ∨ (quiet = false ∧ ((x j).isNan = true ∨ (y j).isNan = true)))
       (lamp.mode.getLsbD 1 = true → inv → FaultsLamp s (exec i s) 13) ∧
       (¬ (lamp.mode.getLsbD 1 = true ∧ inv) → ∃ v fl, Delivers s (exec i s) 6 1 [(24, v)] fl ∧ (inv → fl = 1) ∧
         (¬ inv → fl = 0) ∧
         ∀ j, j < 128 / f.width → lane v f.width j = if P (x j) (y j) then BitVec.allOnes f.width else 0)
     cmp (.cmpEq ty) eqVal true ∧
     cmp (.cmpNe ty) (fun a b => !eqVal a b) true ∧
     cmp (.cmpLt ty) (ltVal false) false ∧
     cmp (.cmpLe ty) (fun a b => ltVal false a b || eqVal a b) false)

/-- R49 to R54, R162 and R165 to R170: an access to the mode or flags word goes into flight with its latched operands;
nothing else changes at the move; a conversion reads its source sequence and delivers its result sequence after 2 clk
with the OR of the flags; an overflow that is trapped faults CVT_OVERFLOW, an INVALID that is trapped faults INVALID; a
stochastic form takes one generator step an element. -/
def Obligations.LampConversionsAndWordAccesses : Prop :=
  (∀ s : State,
     ∀ p ∈ [(Instr.rdflag, 4), (.wrflag, 4), (.rdmode, 4), (.wrmode, 4)],
       exec p.1 s = .next (modTile s s.bundle.tile.val (modLamp s.bundle.lamp.val (fun x =>
         { x with
           serial := x.serial + 1
           flight := x.flight ++ [{
             serial := x.serial, unit := 2, since := s.cycle
             due := s.cycle + p.2 * lampGap (tileOf s s.bundle.tile.val)
             ready := some (s.cycle + p.2 * lampGap (tileOf s s.bundle.tile.val))
             lat := p.2, outs := [], flags := 0, mem := false, access := some (p.1, s.bundle), left := [], counted := false }] })))) ∧
  (∀ (s : State),
     let lamp := lampAt (tileOf s s.bundle.tile.val) s.bundle.lamp.val
     let tile := tileOf s s.bundle.tile.val
     let rnd := rndOf (fld tile.ctrl.rndmode 0 2)
     let daz := lamp.mode.getLsbD 0
     let rows : List (Instr × NumTy × NumTy × Nat × Nat) :=
       [(.cvtBf16, tF32, tBf16, 8, 1), (.cvtF16, tF32, tF16, 8, 1), (.cvtE4m3, tF32, tE4m3, 16, 1),
        (.cvtE5m2, tF32, tE5m2, 16, 1), (.cvtE2m1, tF32, tE2m1, 16, 1), (.cvtE4m3Bf16, tBf16, tE4m3, 16, 1),
        (.cvtE5m2Bf16, tBf16, tE5m2, 16, 1), (.cvtF16Bf16, tBf16, tF16, 8, 1), (.cvtS32, tF32, tS 32, 4, 1),
        (.cvtF32S32, tS 32, tF32, 4, 1), (.cvtS8S32, tS 32, tS 8, 16, 1), (.cvtS16S32, tS 32, tS 16, 8, 1),
        (.cvtS4S8, tS 8, tS 4, 32, 1), (.cvtZ8S32, tS 32, tZ 8, 16, 1), (.cvtF32Bf16, tBf16, tF32, 8, 2),
        (.cvtF32F16, tF16, tF32, 8, 2), (.cvtF32E4m3, tE4m3, tF32, 16, 4), (.cvtF32E5m2, tE5m2, tF32, 16, 4),
        (.cvtF32E2m1, tE2m1, tF32, 16, 4), (.cvtBf16E4m3, tE4m3, tBf16, 16, 2), (.cvtBf16E5m2, tE5m2, tBf16, 16, 2),
        (.cvtBf16E2m1, tE2m1, tBf16, 16, 2), (.cvtS32S8, tS 8, tS 32, 16, 4), (.cvtS32Z8, tZ 8, tS 32, 16, 4),
        (.cvtS32S16, tS 16, tS 32, 8, 2), (.cvtS8S4, tS 4, tS 8, 32, 2), (.cvtF32Mxi8, .mxi8, tF32, 16, 4)]
     let runs (i : Instr) (src dst : NumTy) (n k : Nat) (mode : Nat → Rnd) (gen : W32) : Prop :=
       let rs := (srcSeq src.width n s.bundle).zipIdx.map (fun p =>
         convert src dst (mode p.2) (bit tile.ctrl.cvtmode 0) daz daz p.1)
       let flags := orAll (rs.map (fun c => c.flags))
       let stepped := modThe s (fun x => { x with gen := gen })
       let tooBig := ∃ c ∈ rs, c.trap = true
       let inv := lamp.mode.getLsbD 1 = true ∧ flags % 2 = 1
       (tooBig → FaultsLamp s (exec i s) 12) ∧
       (¬ tooBig → inv → FaultsLamp s (exec i s) 13) ∧
       (¬ tooBig → ¬ inv → Delivers stepped (exec i s) 4 2 (resPorts dst.width k (rs.map (fun c => c.bits))) flags)
     (∀ p ∈ rows, runs p.1 p.2.1 p.2.2.1 p.2.2.2.1 p.2.2.2.2 (fun _ => rnd) lamp.gen) ∧
     (∀ k, let sh := srShape k
       runs (.cvtSr k) sh.1 sh.2.1 sh.2.2.1 sh.2.2.2 (fun i => .sr (genWord lamp.gen i)) (genSteps sh.2.2.1 lamp.gen)) ∧
     DeliversOne s (exec .rdrng s) 4 2 16 (fun v => v = lamp.gen.zeroExtend 128))

/-- R171 to R173: the PX8 expansions of a block whose window decodes, and the transposition of items into bit planes and
back. -/
def Obligations.LampPx8AndPlanes : Prop :=
  ∀ (s : State),
    let lamp := lampAt (tileOf s s.bundle.tile.val) s.bundle.lamp.val
    let rnd := rndOf (fld (tileOf s s.bundle.tile.val).ctrl.rndmode 0 2)
    let sat := bit (tileOf s s.bundle.tile.val).ctrl.cvtmode 0
    let w := if s.bundle.cvA.getLsbD 0 then 16 else 8
    (∀ b rest, px8DecodeBlock (px8Window s.bundle) = some (b, rest) →
      Delivers s (exec .px8E4m3 s) 4 4 (resPorts 8 2 b.elems ++
        [(18, packLanes 32 [BitVec.ofNat 32 b.scale, BitVec.ofNat 32 b.emax, BitVec.ofNat 32 b.len, 0])]) 0 ∧
      (let rs := b.elems.map (fun e => px8Bf16Elem rnd sat (lamp.mode.getLsbD 0) b.scale e)
       (∃ c ∈ rs, c.trap = true) → FaultsLamp s (exec .px8Bf16 s) 12) ∧
      (let rs := b.elems.map (fun e => px8Bf16Elem rnd sat (lamp.mode.getLsbD 0) b.scale e)
       let fl := orAll (rs.map (fun c => c.flags))
       (∀ c ∈ rs, c.trap = false) → ¬ (lamp.mode.getLsbD 1 = true ∧ fl % 2 = 1) →
         Delivers s (exec .px8Bf16 s) 4 4 (resPorts 16 4 (rs.map (fun c => c.bits))) fl)) ∧
    (px8DecodeBlock (px8Window s.bundle) = none →
      (lamp.mode.getLsbD 1 = true → FaultsLamp s (exec .px8E4m3 s) 13 ∧ FaultsLamp s (exec .px8Bf16 s) 13) ∧
      (lamp.mode.getLsbD 1 = false →
        Delivers s (exec .px8E4m3 s) 4 4 [(16, 0), (17, 0), (18, packLanes 32 [0, 0, 0, 1])] 1 ∧
        ∃ outs, Delivers s (exec .px8Bf16 s) 4 4 outs 1 ∧ outs.map Prod.fst = [16, 17, 18, 19] ∧
          ∀ p ∈ outs, ∀ j, j < 8 → lane p.2 16 j = 0x7FC0)) ∧
    DeliversOne s (exec .planePack s) 4 2 16 (fun v => ∀ q i, q < w → i < 128 / w →
      (lane v (128 / w) q).getLsbD i = (lane s.bundle.t w i).getLsbD (w - 1 - q)) ∧
    DeliversOne s (exec .planeUnpack s) 4 2 16 (fun v => ∀ q i, q < w → i < 128 / w →
      (lane v w i).getLsbD (w - 1 - q) = (lane s.bundle.t (128 / w) q).getLsbD i)

/-- R103, R104, R174 to R179, R181, R182 and R184: the accesses of `ls` that are in order and find their banks, or the
accumulator-row port, free. That such an access takes effect in the clk of its trigger, all its granules at once, is the model's
choice (log entries 31 and 117). Loads deliver the bytes at their addresses, stores write them and no other byte but those of an open undo log (R222), and
an atomic add delivers the old granule and stores the lane sums; an access out of the job's SRAM faults SRAM_BOUND, one within it that is not aligned
MISALIGNED; a bank move of an unmapped bank faults BANK_UNMAPPED; an accumulator row of a free or reserved bank faults
ACC_UNALLOC, one that the lamp's group does not own ACC_NOT_OWNED. -/
def Obligations.LampMemoryAccessesAndFaults : Prop :=
  (∀ (s : State),
     let r := s.bundle.tile.val
     let l := s.bundle.lamp.val
     let tile := tileOf s r
     let m := tile.sram
     let a := lsAddr s.bundle 0
     let b := lsBank s.bundle
     let c := clusterOf r
     let w := (lane s.bundle.t 32 0).toNat
     let free (i : Instr) : Prop := lsCause s r l i s.bundle = 0 ∧
       (lampAt tile l).flight.any InFlight.pending = false ∧ (lampAt tile l).after = [] ∧ lsBanksFree s r i s.bundle = true ∧
       (tile.ckpt = none ∨ jobLimit tile ≤ 0x1D0000)
     let same (t : State) : Prop := (tileOf t r).sram = m ∧ t.lenses = s.lenses
     let byte (v : V128) (j : Nat) : Byte := v.extractLsb' (8 * j) 8
     let stored (t : State) (as : List (Nat × Nat)) : Prop := t.lenses = s.lenses ∧
       ∀ x, (∀ p ∈ as, x < p.1 ∨ p.1 + p.2 ≤ x) → (tile.ckpt = none ∨ x < 0x1D3000 ∨ 0x1F0000 ≤ x) →
         Mem.read (tileOf t r).sram x = Mem.read m x
     (∀ p ∈ [(Instr.lsLd, a, 16), (.lsLdSk, skewMap tile a, 16), (.ldB32, a, 4)], free p.1 →
       Accesses s (exec p.1 s) 5 (fun t e => same t ∧ ∃ v, e.outs = [(20, v)] ∧
         ∀ j, j < 16 → byte v j = if j < p.2.2 then Mem.read m (p.2.1 + j) else 0)) ∧
     (free .ldgB32 → Accesses s (exec .ldgB32 s) 5 (fun t e => same t ∧ ∃ v, e.outs = [(20, v)] ∧
       ∀ n j, n < 4 → j < 4 → byte v (4 * n + j) = Mem.read m (lsAddr s.bundle n + j))) ∧
     (free .ldb → Accesses s (exec .ldb s) 5 (fun t e => same t ∧ ∃ v : Nat → V128,
       e.outs = (List.range 8).map (fun j => (32 + 8 * b + j, v j)) ∧
       ∀ n j, n < 8 → j < 16 → byte (v n) j = Mem.read m (a + 16 * n + j))) ∧
     (∀ p ∈ [(Instr.lsSt, a, 16), (.lsStSk, skewMap tile a, 16), (.stB32, a, 4)], free p.1 →
       Accesses s (exec p.1 s) 5 (fun t e => e.outs = [] ∧ stored t [(p.2.1, p.2.2)] ∧
         ∀ j, j < p.2.2 → Mem.read (tileOf t r).sram (p.2.1 + j) = byte s.bundle.lsA j)) ∧
     (free .stgB32 → Accesses s (exec .stgB32 s) 5 (fun t e => e.outs = [] ∧
       stored t ((List.range 4).map (fun n => (lsAddr s.bundle n, 4))) ∧
       ∀ n j, n < 4 → j < 4 → (∀ k, n < k → k < 4 → lsAddr s.bundle k ≠ lsAddr s.bundle n) →
         Mem.read (tileOf t r).sram (lsAddr s.bundle n + j) = byte s.bundle.lsA (4 * n + j))) ∧
     (free .stb → Accesses s (exec .stb s) 5 (fun t e => e.outs = [] ∧ stored t [(a, 128)] ∧
       ∀ n j v, n < 8 → j < 16 → vreg tile l (8 * b + n) = some v →
         Mem.read (tileOf t r).sram (a + 16 * n + j) = byte v j)) ∧
     (∀ p ∈ [(Instr.atomAddF32, AddTy.f32), (.atomAddBf16, .bf16), (.atomAddS32, .s32)], free p.1 →
       Accesses s (exec p.1 s) 5 (fun t e => stored t [(a, 16)] ∧ e.outs = [(20, Mem.granule m a)] ∧
         let n := 8 * p.2.bytes
         ∀ i, i < 128 / n → lane (Mem.granule (tileOf t r).sram a) n i =
           BitVec.ofNat n (p.2.add (lane (Mem.granule m a) n i).toNat (lane s.bundle.lsA n i).toNat).1)) ∧
     (free .ldacc → Accesses s (exec .ldacc s) 8 (fun t e => same t ∧ ∃ v, e.outs = [(20, v)] ∧
       ∀ n, n < 4 → lane v 32 n = accWord s c (w % 4096) (w / 4096 % 16 * 4 + n))) ∧
     (free .ldaccCol → Accesses s (exec .ldaccCol s) 8 (fun t e => same t ∧ ∃ v, e.outs = [(20, v)] ∧
       ∀ n, n < 4 → lane v 32 n = accWord s c (w % 4096 + n) (w / 4096 % 64))) ∧
     (free .stacc → Accesses s (exec .stacc s) 8 (fun t e => e.outs = [] ∧ (tileOf t r).sram = m ∧
       (∀ n, n < 4 → accWord t c (w % 4096) (w / 4096 % 16 * 4 + n) = lane s.bundle.lsA 32 n) ∧
       (∀ row k, row < 4096 → k < 64 → (row = w % 4096 → k / 4 ≠ w / 4096 % 16) → accWord t c row k = accWord s c row k) ∧
       ∀ d, d ≠ c → lensOf t d = lensOf s d))) ∧
  (∀ (s : State),
     let r := s.bundle.tile.val
     let tile := tileOf s r
     let x := lampAt tile s.bundle.lamp.val
     let a := lsAddr s.bundle 0
     let row := (lane s.bundle.t 32 0).toNat % 4096
     let bank (n : Nat) : Bank := SMap.getD (lensOf s (clusterOf r)).banks (n / 32) Bank.reset
     let unready (n : Nat) : Prop := (bank n).st = .free ∨ (bank n).st = .reserved
     let foreign (n : Nat) : Prop := (bank n).tile ≠ posOf r ∨ (bank n).owner ≠ some x.group
     (∀ p ∈ [(Instr.lsLd, 16), (.lsLdSk, 16), (.lsSt, 16), (.lsStSk, 16), (.ldB32, 4), (.stB32, 4), (.atomAddF32, 16),
         (.atomAddBf16, 16), (.atomAddS32, 16)],
       (jobLimit tile < a + p.2 → FaultsLamp s (exec p.1 s) 8) ∧
       (a + p.2 ≤ jobLimit tile → a % p.2 ≠ 0 → FaultsLamp s (exec p.1 s) 9)) ∧
     (∀ i ∈ [Instr.ldgB32, .stgB32],
       ((∃ n, n < 4 ∧ jobLimit tile < lsAddr s.bundle n + 4) → FaultsLamp s (exec i s) 8) ∧
       ((∀ n, n < 4 → lsAddr s.bundle n + 4 ≤ jobLimit tile) → (∃ n, n < 4 ∧ lsAddr s.bundle n % 4 ≠ 0) →
         FaultsLamp s (exec i s) 9)) ∧
     (∀ i ∈ [Instr.ldb, .stb], x.bank (lsBank s.bundle) = none → FaultsLamp s (exec i s) 5) ∧
     (∀ i ∈ [Instr.ldacc, .stacc],
       (unready row → FaultsLamp s (exec i s) 10) ∧ (¬ unready row → foreign row → FaultsLamp s (exec i s) 11)) ∧
     (row % 4 ≠ 0 → FaultsLamp s (exec .ldaccCol s) 9) ∧
     (row % 4 = 0 → (∃ n, n < 4 ∧ unready (row + n)) → FaultsLamp s (exec .ldaccCol s) 10))

/-- R79, R85, R86, R188 to R192, R195 to R197: the operations of `ct` that fetch and leave blocks, repeat, fence, send on links,
signal and set the link index. A fetch reads the block at once where its banks are free, and goes on to where they are (R79); an
entry stands in a FIFO by its clk, and among those of one clk by its sender (R81). -/
def Obligations.LampControlOperations : Prop :=
  ∀ (s : State),
    let r := s.bundle.tile.val
    let l := s.bundle.lamp.val
    let tile := tileOf s r
    let x := lampAt tile l
    let w := (lane s.bundle.t 32 0).toNat
    let only (o : Out) (y : Lamp) : Prop := o = .next (modTile s r (setLamp l y))
    let block (i : Instr) (blk : Nat) : Prop := x.rep = none → blk * 256 + 192 ≤ jobLimit tile →
      ∃ u f, exec i s = .next (setTile s r u) ∧ f.block = BitVec.ofNat 13 blk ∧ f.readyAt = s.cycle + 6 * lampGap tile ∧
        u = { setLamp l { x with fetched := some f } tile with
              bankClk := u.bankClk, banksUsed := u.banksUsed, codeRead := u.codeRead } ∧
        (∀ j ∈ f.todo, bankBusy s tile (blk * 256 + 16 * j) = true ∨ blk * 256 + 16 * j ∈ tile.bad) ∧
        ((∀ j, j < 12 → bankBusy s tile (blk * 256 + 16 * j) = false ∧ blk * 256 + 16 * j ∉ tile.bad) → f.todo = [] ∧ f.code = readBlock tile.sram (blk * 256))
    let stops (o : Out) : Prop := ∃ t, o = .next t ∧ (lampAt (tileOf t r) l).st = .stopped ∧
      (tileOf t r).sram = tile.sram ∧ (lampAt (tileOf t r) l).ports = x.ports ∧ (lampAt (tileOf t r) l).preds = x.preds ∧
      ∀ m, m < 16 → m ≠ l → lampAt (tileOf t r) m = lampAt tile m
    let later (z : LinkEntry) : Prop := s.cycle + 1 < z.readableAt ∨ (z.readableAt = s.cycle + 1 ∧ l < z.sender.val)
    let sends (i : Instr) (d : Nat) : Prop := (lampAt tile d).fifo.length < 2 →
      ∃ t e n, exec i s = .next t ∧ e.val = s.bundle.t ∧ e.readableAt = s.cycle + 1 ∧ e.sender = s.bundle.lamp ∧
        lampAt (tileOf t r) d =
          { lampAt tile d with fifo := (lampAt tile d).fifo.take n ++ [e] ++ (lampAt tile d).fifo.drop n } ∧
        (∀ z ∈ (lampAt tile d).fifo.take n, ¬ later z) ∧ (∀ z, ((lampAt tile d).fifo.drop n).head? = some z → later z) ∧
        (∀ m, m < 16 → m ≠ d → lampAt (tileOf t r) m = lampAt tile m) ∧ (tileOf t r).sram = tile.sram
    block .fetch (w / 256) ∧ block .next (x.block.toNat + 1) ∧
    (∀ i ∈ [Instr.fetch, .next, .jump, .stop, .rep], x.rep.isSome = true → FaultsLamp s (exec i s) 2) ∧
    (x.rep = none → jobLimit tile < w / 256 * 256 + 192 → FaultsLamp s (exec .fetch s) 14) ∧
    (x.rep = none → stops (exec .stop s)) ∧
    (x.rep = none → x.fetched = none → stops (exec .jump s)) ∧
    (∀ f, x.rep = none → x.fetched = some f → ∃ t, exec .jump s = .next t ∧
      (let y := lampAt (tileOf t r) l
       y.block = f.block ∧ y.bundle = 0 ∧ y.code = f.code ∧ y.fetched = none ∧ y.st = x.goOn ∧ y.ports = x.ports ∧
       y.preds = x.preds ∧ y.ptrs = x.ptrs) ∧ (tileOf t r).sram = tile.sram) ∧
    (x.rep = none → x.bundle.toNat + (w / 256 % 16 + 1) ≤ (if x.fetched.isSome then 15 else 7) →
      only (exec .rep s) { x with rep := some ⟨0, w % 256, w / 256 % 16, w / 4096 % 32, 0, []⟩ }) ∧
    (x.rep = none → (if x.fetched.isSome then 15 else 7) < x.bundle.toNat + (w / 256 % 16 + 1) →
      FaultsLamp s (exec .rep s) 2) ∧
    (∃ n, only (exec .fence s) { x with nextAt := n, fence := true } ∧ x.nextAt ≤ n ∧ (∀ o ∈ x.flight, o.mem = true → o.due ≤ n) ∧
      (n = x.nextAt ∨ ∃ o ∈ x.flight, o.mem = true ∧ n = o.due)) ∧
    sends .linkNext ((l + 1) % 16) ∧ sends .linkPrev ((l + 15) % 16) ∧ sends .linkIdx x.linkIdx.toNat ∧
    (∃ t, exec .signal s = .next (setTile s r t) ∧
      t = { tile with signals := t.signals, ctrl := { tile.ctrl with events := t.ctrl.events } } ∧
      (∀ n, n < 64 → (bit t.ctrl.events n = true ↔ bit tile.ctrl.events n = true ∨ n = 16 + l)) ∧
      ∀ n, n < 16 → vget t.signals n 0 = if n = l then lane s.bundle.t 32 0 else vget tile.signals n 0) ∧
    only (exec .linkreg s) { x with linkIdx := s.bundle.t.extractLsb' 0 4 }

/-- R89 to R94, R193, R194: give, pass, claim and take of a bank where they are granted at once, their faults, and a claim,
a take and a pass that must wait; a queued block that an LSPILL.in is filling stays a fill of the bank that takes it (R94, R305). A
block given or passed in this clk is there from the next on (R499). -/
def Obligations.LampBankOperations : Prop :=
  ∀ (s : State),
    let r := s.bundle.tile.val
    let l := s.bundle.lamp.val
    let tile := tileOf s r
    let x := lampAt tile l
    let w := (lane s.bundle.t 32 0).toNat
    let b := w % 4
    let q := w / 4 % 4
    let g := x.group.toNat
    let unmapped (y : Lamp) : Prop := y = { x with ptrs := vset x.ptrs b none }
    let mapped (y : Lamp) (blk : Nat) (loan : Bool) : Prop :=
      y = { x with ptrs := vset x.ptrs b (some ⟨blk, loan, false⟩), after := y.after, fills := y.fills }
    let first := ∀ z ∈ tile.loanQ, s.cycle * 16 + l ≤ z.stamp
    let others (t : Tile) : Prop := t.keeper = tile.keeper ∧ SramButLog tile t ∧
      ∀ m, m < 16 → m ≠ l → lampAt t m = lampAt tile m
    let after (o : Out) (P : Tile → Prop) : Prop := ∃ t, o = .next t ∧ P (tileOf t r) ∧ ∀ p, p ≠ r → tileOf t p = tileOf s p
    let waits (o : Out) (w : LampWait) (P : Tile → Prop) : Prop := after o (fun t =>
      lampAt t l = { x with st := .blocked, wait := w } ∧ others t ∧ t.free = tile.free ∧ t.ws = tile.ws ∧ P t)
    (∀ p, x.bank b = some p → x.filling s.cycle b = false →
      after (exec .give s) (fun t => unmapped (lampAt t l) ∧ t.free = tile.free ++ [p.block] ∧ others t ∧ t.ws = tile.ws) ∧
      ((queueOf tile q).length < 16 → (∀ z ∈ tile.passQ, z.group ≠ q) →
        after (exec .pass s) (fun t => unmapped (lampAt t l) ∧ queueOf t q = queueOf tile q ++ [(p.block, g)] ∧ others t ∧
          t.free = tile.free ∧ t.ws = tile.ws)) ∧
      (16 ≤ (queueOf tile q).length ∨ (∃ z ∈ tile.passQ, z.group = q) →
        waits (exec .pass s) .pass (fun t => ∃ z ∈ t.passQ, z.kind = .pass ∧ z.lamp = s.bundle.lamp ∧ z.bank = b ∧ z.group = q))) ∧
    (∀ i ∈ [Instr.give, .pass], (x.bank b = none → FaultsLamp s (exec i s) 5) ∧
      (x.bank b ≠ none → x.filling s.cycle b = true → FaultsLamp s (exec i s) 6)) ∧
    (∀ i ∈ [Instr.claim, .take], (vget x.ptrs b none).isSome = true → FaultsLamp s (exec i s) 6) ∧
    (∀ loan, vget x.ptrs b none = none → claimOwn tile g = !loan → freeNow tile ≠ [] →
      (loan = true → x.holdsLoan = false ∧ first ∧ claimOk tile g 1 true = true) →
      after (exec .claim s) (fun t => ∃ blk, blk ∈ freeNow tile ∧ mapped (lampAt t l) blk loan ∧ (lampAt t l).fills = x.fills ∧
        t.free = tile.free.erase blk ∧ others t ∧
        ∀ k, SMap.getD t.ws k 0 = if k / 8 = blk then 0 else SMap.getD tile.ws k 0)) ∧
    (vget x.ptrs b none = none → claimOwn tile g = false → x.holdsLoan = true → FaultsLamp s (exec .claim s) 7) ∧
    (vget x.ptrs b none = none → claimOwn tile g = false → x.holdsLoan = false →
      (¬ first ∨ claimOk tile g 1 true = false) →
      waits (exec .claim s) .claim (fun t => ∃ z ∈ t.loanQ, z.kind = .claim ∧ z.lamp = s.bundle.lamp ∧ z.bank = b ∧
        z.cls = some (0, true))) ∧
    (∀ blk h, vget x.ptrs b none = none → queueHead tile q = some (blk, h) → takesWait tile q = false →
      let loan := !takeOwn tile g h
      let goes := takeOk tile g h loan = true ∧ (g = h ∨ loan = false ∨ first)
      (loan = true → x.holdsLoan = true → FaultsLamp s (exec .take s) 7) ∧
      ((loan = true → x.holdsLoan = false) → goes →
        after (exec .take s) (fun t => mapped (lampAt t l) blk loan ∧
          (lampAt t l).fills = x.fills ++ (if spillFills tile blk = true then [(8 + b, 0)] else []) ∧ queueOf t q = (queueOf tile q).drop 1 ∧ others t ∧
          t.free = tile.free ∧ t.ws = tile.ws)) ∧
      ((loan = true → x.holdsLoan = false) → ¬ goes →
        waits (exec .take s) .take (fun t => ∃ z ∈ t.loanQ, z.kind = .take ∧ z.lamp = s.bundle.lamp ∧ z.bank = b ∧ z.group = q ∧
          z.cls = some (h, loan)))) ∧
    (vget x.ptrs b none = none → (queueHead tile q = none ∨ takesWait tile q = true) →
      waits (exec .take s) .take (fun t => ∃ z ∈ t.takeQ, z.kind = .take ∧ z.lamp = s.bundle.lamp ∧ z.bank = b ∧ z.group = q ∧
        z.cls = none))

/-! ## Events: keeper and tile -/

/-- R198, R202, R218 to R220, R222, R226, R240 and R455: an asynchronous trap that is due is taken in the order DEBUG,
PREEMPT, then the other causes; PREEMPT stops the lamps; an illegal word and a fetch out of bounds trap; a waiting
instruction is tried as at its issue; the timer sets its bit once its value is reached; the deferral of PREEMPT ends; a
duplex pair rolls back to its checkpoint. -/
def Obligations.TrapsAndKeeperEvents : Prop :=
  (∀ (s : State), (cur s).keeper.station = false →
     let t := cur s
     let m := t.ctrl.events &&& t.ctrl.evmask
     let pc := t.keeper.pc
     let due := bit m 38 = true ∧ (t.keeper.preemptBy = none ∨ t.keeper.halted = true)
     let ordinary := bit m 39 = false ∧ ¬ due ∧ t.keeper.halted = false ∧ t.keeper.inTrap = false
     let takes (cause : Nat) (val : W64) (agent tok : Nat) : Prop :=
       ∃ (u : Tile) (ls : Lightship), exec .takeTrap s = .next { setTile s s.focus.val u with ls := ls } ∧
         u = { t with keeper := u.keeper, ctrl := u.ctrl } ∧ u.keeper.k = t.keeper.k ∧
         u.keeper.issueAt = s.cycle + 3 ∧ u.keeper.waiting = none ∧
         (bit t.ctrl.trapvec 0 = false → TrappedToStation t u true cause val pc agent tok) ∧
         (bit t.ctrl.trapvec 0 = true → TrappedToJob t u true cause val pc agent tok ∧ ls = s.ls)
     (bit m 39 = true → TileNext s (exec .takeTrap s) (fun u => TrappedToStation t u true 11 0 pc 31 0 ∧ SameRegs s u.keeper ∧
       u.act = t.act ∧ u.sram = t.sram)) ∧
     (bit m 39 = false → due → ∃ u, exec .takeTrap s = .next u ∧
       (let k := (cur u).keeper
        k.station = true ∧ k.pc = 0x1F0000 ∧ k.preempted = true ∧ k.halted = false ∧ k.inTrap = t.keeper.inTrap) ∧
       SameRegs s (cur u).keeper ∧ (cur u).ctrl.strappc = pc ∧ CauseIs (cur u).ctrl.strapcause true 10 31 0 ∧
       bit (cur u).ctrl.strapcause 29 = false ∧ (cur u).ctrl.trappc = t.ctrl.trappc ∧
       (cur u).lampsStopped = true ∧ (cur u).freezes = [] ∧ ∀ q, q ≠ s.focus.val → tileOf u q = tileOf s q) ∧
     (ordinary →
       (bit m 33 = true → takes 6 (if bit t.eng.lensFault 63 then t.eng.lensFault else t.eng.copyFault) 31 0) ∧
       (bit m 33 = false → bit m 34 = true → takes 7 t.eng.copyFault 31 0) ∧
       (bit m 33 = false → bit m 34 = false → bit m 35 = true → takes 8 0 31 0) ∧
       (bit m 33 = false → bit m 34 = false → bit m 35 = false →
         (∀ l, l < 16 → bit m l = true → (∀ j, j < l → bit m j = false) → takes 5 0 l 0) ∧
         ((∀ l, l < 16 → bit m l = false) →
           (bit m 36 = true → takes 9 0 (t.keeper.checkInfo.toNat / 64) (t.keeper.checkInfo.toNat % 64)) ∧
           (bit m 36 = false → bit m 37 = true → takes 12 0 31 0))))) ∧
  (∀ (s : State) (w : W32) (r : TileId),
     let t := tileOf s r.val
     TrapsSync s (exec (.illegal w) s) 1 (w.zeroExtend 64) 31 0 ∧
     TrapsSync s (exec .fetchSramBound s) 2 (cur s).keeper.pc 31 0 ∧
     (∀ d a, ∀ i ∈ [Instr.waitev d a, .twait a, .twaita d a, .done a, .ljoin d a, .mwait d a, .accAlloc d a,
         .flash d a],
       (cur s).keeper.waiting = some i → exec .keeperWaitComplete s = exec i s) ∧
     (∀ a, (cur s).keeper.waiting = some (.twait a) → tokLo (cur s) (cur s).keeper.station &&& kreg s a = kreg s a →
       OnlyAdvances s (exec .keeperWaitComplete s)) ∧
     (exec (.timer r) s = .next (setTile s r.val { t with ctrl := { t.ctrl with
       events := if bit t.ctrl.alarm 63 = true ∧ fld t.ctrl.alarm 0 63 ≤ s.cycle % 2 ^ 63 then t.ctrl.events ||| oneBit 37
         else t.ctrl.events } })) ∧
     (∀ n, t.keeper.preemptBy = some n → n ≤ s.cycle →
       exec (.preemptPhaseTimeout r) s = .next (setTile s r.val { t with keeper := { t.keeper with preemptBy := none } })) ∧
     (∀ c, t.mismatch = true → t.ckpt = some c → t.copyRun = none → t.failing = [] →
       t.eng.copyQ = [] →
       TileEvent s r.val (exec (.duplexRollback r) s) (fun u =>
         u.keeper = { c.keeper with started := true } ∧ u.act = c.lamps ∧ u.free = c.free ∧ u.mismatch = false ∧
         u.eng.tok = Vector.replicate 64 0 ∧ u.ctrl.events = c.ctrl.events ∧ u.ctrl.strappc = t.ctrl.strappc ∧
         ((c.granules.map Prod.fst).Nodup → (∀ p ∈ c.granules, p.1 % 16 = 0) →
           (∀ p ∈ c.granules, Mem.granule u.sram p.1 = p.2) ∧
           ∀ x, (∀ p ∈ c.granules, x / 16 * 16 ≠ p.1) → Mem.read u.sram x = Mem.read t.sram x) ∧
         ((c.slots.map Prod.fst).Nodup → ∀ k, SMap.getD u.ws k 0 =
           match c.slots.find? (fun p => p.1 == k) with | some p => p.2 | none => SMap.getD t.ws k 0))))

/-! ## Events: lamps -/

/-- R69, R74, R77, R79, R81, R83, R84, R299: the steps of a lamp array in which one lamp is active, and the release of a
freeze; the targets of a flash execute bundle 0 in the clk that begins at its delivery (R77; log entry 110). -/
def Obligations.LampSteps : Prop :=
  ∀ (s : State) (r : TileId) (l : Fin 16),
    let t := tileOf s r.val
    let x := lampAt t l.val
    let y (u : Tile) : Lamp := lampAt u l.val
    let others (u : Tile) : Prop := SramButLog t u ∧ u.free = t.free ∧ u.keeper = t.keeper ∧
      ∀ m, m < 16 → m ≠ l.val → lampAt u m = lampAt t m
    let goesOn (u : Tile) : Prop := (y u).bundle = x.bundle + 1 ∧ (y u).block = x.block ∧ (y u).code = x.code ∧
      (y u).nextAt = s.cycle + lampGap t ∧ (y u).ports = x.ports ∧ (y u).preds = x.preds ∧ (y u).ptrs = x.ptrs ∧
      (y u).flags = x.flags ∧ (y u).mode = x.mode ∧ (y u).flight = []
    (OneLamp s t l.val → x.st = .running →
      (awaitsStart t l.val = false → movesOf x x.current = [] → x.bundle ≠ 7 → TileEvent s r.val (exec (.lampBundle r l) s)
        (fun u => goesOn u ∧ (y u).st = .running ∧ others u ∧ u.ws = t.ws)) ∧
      (awaitsStart t l.val = false → movesOf x x.current = [] → x.bundle = 7 → x.fetched = none → x.drain = false →
        TileEvent s r.val (exec (.lampBundle r l) s) (fun u => (y u).st = .stopped ∧ others u ∧ u.ws = t.ws)) ∧
      (∀ sl src dst g v p, awaitsStart t l.val = false → movesOf x x.current = [⟨sl, src, dst, g⟩] → dst < 32 →
        SourceIs t l.val src v →
        x.bank (dst / 8) = some p → x.fills = [] → x.bundle ≠ 7 →
        TileEvent s r.val (exec (.lampBundle r l) s) (fun u => goesOn u ∧ (y u).st = .running ∧ others u ∧
          ∀ k, SMap.getD u.ws k 0 = if k = p.block * 8 + dst % 8 then v else SMap.getD t.ws k 0)) ∧
      (∀ z, t.lstarts = [z] → (∀ m, m < 16 → (z.mask.getLsbD m = true ↔ m = l.val)) → requests t = [] →
        movesOf x x.current = [] → x.bundle ≠ 7 → TileEvent s r.val (exec (.lstartFirstBundle r) s)
          (fun u => goesOn u ∧ (y u).st = .running ∧ others u ∧ u.lstarts = []))) ∧
    (∀ sl dst g p e rest, OneLamp s t l.val → awaitsStart t l.val = false → x.st = .blocked → x.wait = .linkRead → x.fifo = e :: rest →
      e.readableAt ≤ s.cycle → e.sender ≠ l →
      movesOf x x.current = [⟨sl, 0x2C, dst, g⟩] → dst < 32 → x.bank (dst / 8) = some p → x.fills = [] → x.bundle ≠ 7 →
      TileEvent s r.val (exec (.linkStallRelease r l) s) (fun u => goesOn u ∧ (y u).st = x.goOn ∧ (y u).wait = .none ∧
        (y u).fifo = rest ∧ others u ∧
        ∀ k, SMap.getD u.ws k 0 = if k = p.block * 8 + dst % 8 then e.val else SMap.getD t.ws k 0)) ∧
    (∀ f, TileRuns s t → t.freezes = [f] → f.since ≤ s.cycle →
      (∀ m, m < 16 → (lampAt t m).flight = [] ∧ (lampAt t m).st ≠ .flashed) →
      TileEvent s r.val (exec (.freezeRelease r) s) (fun u => u.freezes = [] ∧ u.sram = t.sram ∧ u.ws = t.ws ∧
        ∀ m : Fin 16, (lampAt u m.val).st = (lampAt t m.val).st ∧ (lampAt u m.val).ports = (lampAt t m.val).ports ∧
          (lampAt u m.val).nextAt = (lampAt t m.val).nextAt +
            (if m ∈ f.held ∧ (lampAt t m.val).paused = false ∧ f.since ≤ (lampAt t m.val).nextAt then s.cycle - f.since
             else 0))) ∧
    (∀ o, TileRuns s t → t.freezes = [] → BlocksRead t → x.flight = [o] → x.paused = false → o.access = none → o.left = [] →
      o.due ≤ s.cycle →
      o.ready.any (fun n => decide (n ≤ s.cycle)) = true → (∀ p ∈ o.outs, p.1 < 32) → (o.outs.map Prod.fst).Nodup →
      (∀ m, m < 16 → (lampAt t m).st ≠ .flashed ∧ (m ≠ l.val → (lampAt t m).flight = [])) →
      TileEvent s r.val (exec (.resultDelivery r l) s) (fun u => (y u).flight = [] ∧ (y u).st = x.st ∧
        (y u).flags = x.flags ||| o.flags ∧ (y u).ptrs = x.ptrs ∧ (y u).bundle = x.bundle ∧ others u ∧ u.ws = t.ws ∧
        (∀ p ∈ o.outs, vget (y u).ports p.1 0 = p.2) ∧
        ∀ k, k < 32 → k ∉ o.outs.map Prod.fst → vget (y u).ports k 0 = vget x.ports k 0)) ∧
    (∀ e, TileRuns s t → t.stFlash = none → t.keeper.preempted = false → t.parkSeen = false → t.eng.flashQ = [e] →
      (∀ m, m < 16 → e.mask.getLsbD m = true → (lampAt t m).st = .stopped) →
      TileEvent s r.val (exec (.flashDelivery r) s) (fun u => u.eng.flashQ = [] ∧ u.sram = t.sram ∧ u.ws = t.ws ∧
        ∀ m, m < 16 →
          (e.mask.getLsbD m = false → lampAt u m = lampAt t m) ∧
          (e.mask.getLsbD m = true → (lampAt u m).st = .flashed ∧ (lampAt u m).block = BitVec.ofNat 13 (e.addr / 256) ∧
            (lampAt u m).bundle = 0 ∧ (lampAt u m).code = readBlock t.sram e.addr ∧ (lampAt u m).nextAt = s.cycle ∧
            (lampAt u m).ports = (lampAt t m).ports ∧ (lampAt u m).ptrs = (lampAt t m).ptrs)))

/-- R90, R91, R93, R95 to R97, R328, R349: a waiting claim that the counts permit is granted, a loan if it was classified so; a
row of a DRAIN goes to the lowest lamp that may take it, which waits for its claims; once they are granted its words stand in the two
banks that the dispatch claims; a handler that stops gives its banks back and releases its row, cleared where the DRAIN says so. -/
def Obligations.GrantsAndDrainDispatch : Prop :=
  ∀ (s : State) (r : TileId) (l : Fin 16),
    let t := tileOf s r.val
    let x := lampAt t l.val
    let g := x.group.toNat
    (∀ q sl src dst gd v k loan, OneLamp s t l.val → x.st = .blocked → x.wait = .claim → t.loanQ = [q] → t.takeQ = [] →
      t.passQ = [] → q.kind = .claim → q.lamp = l → q.cls = some (k, loan) →
      movesOf x x.current = [⟨sl, src, dst, gd⟩] → destOf dst = .trig 7 .claim → SourceIs t l.val src v →
      (lane v 32 0).toNat % 4 = q.bank → vget x.ptrs q.bank none = none → x.holdsLoan = false → x.bundle ≠ 7 →
      claimOk t g 1 true = true → TileEvent s r.val (exec (.requestGrant r) s) (fun u =>
        let y := lampAt u l.val
        u.loanQ = [] ∧ y.st = x.goOn ∧ y.wait = .none ∧ y.bundle = x.bundle + 1 ∧ y.nextAt = s.cycle + lampGap t ∧
        y.ports = x.ports ∧ SramButLog t u ∧ ∃ blk, blk ∈ freeNow t ∧ u.free = t.free.erase blk ∧
          y.ptrs = vset x.ptrs q.bank (some ⟨blk, loan, false⟩) ∧
          ∀ k, SMap.getD u.ws k 0 = if k / 8 = blk then 0 else SMap.getD t.ws k 0)) ∧
    (∀ (c : LensId) a w, c.val = clusterOf r.val → a.tile = posOf r.val → tileAt c.val a.tile = r.val →
      (lensOf s c.val).accepted = [a] → a.cmd.op = 0x76 → a.checked = true → a.pos < acRows a.cmd → a.claim = none →
      (lensOf s c.val).turn = none →
      (lensOf s c.val).held = [] → (lensOf s c.val).bad = [] → (∀ i, slotOf (lensOf s c.val) i = none) →
      (lensOf s c.val).rowOpAt ≤ s.cycle →
      TileRuns s t → g = fld a.cmd.d1 32 2 → x.st = .stopped → x.bank 1 = some w → vget x.ptrs 2 none = none →
      vget x.ptrs 3 none = none → x.holdsLoan = false → (∀ m, m < l.val → (lampAt t m).group.toNat ≠ g) →
      ∃ u, exec (.drainDispatch c) s = .next u ∧ lampAt (tileOf u r.val) l.val = { x with st := .blocked, wait := .dispatch } ∧
        (∀ m, m < 16 → m ≠ l.val → lampAt (tileOf u r.val) m = lampAt t m) ∧
        (∃ z ∈ (tileOf u r.val).loanQ, z.kind = .dispatch ∧ z.lamp = l ∧ z.group = g ∧ z.cls = none) ∧
        (tileOf u r.val).free = t.free ∧ (tileOf u r.val).ws = t.ws ∧ (tileOf u r.val).sram = t.sram ∧
        lensOf u c.val = { lensOf s c.val with accepted := [{ a with claim := some l }], rowOpAt := s.cycle + 1 }) ∧
    (∀ (c : LensId) q a w, c.val = clusterOf r.val → t.loanQ = [q] → t.takeQ = [] → t.passQ = [] → q.kind = .dispatch →
      q.lamp = l → q.cls = none → x.st = .blocked → x.wait = .dispatch → (lensOf s c.val).accepted = [a] → a.tile = posOf r.val →
      a.claim = some l → (lensOf s c.val).held = [] → TileRuns s t → x.bank 1 = some w → vget x.ptrs 2 none = none →
      vget x.ptrs 3 none = none → heldNow t g + 2 ≤ floorOf t g → t.free.Nodup → 2 ≤ (freeNow t).length → w.block ∉ t.free →
      ∃ u, exec (.requestGrant r) s = .next u ∧
        (let y := lampAt (tileOf u r.val) l.val
         let row := acFirst a.cmd + a.pos
         let h := fld a.cmd.d1 0 21
         y.st = .draining ∧ y.drain = true ∧ y.row = some row ∧ y.bundle = 0 ∧ y.block = BitVec.ofNat 13 (h / 256) ∧
         (t.ckpt = none → y.code = readBlock t.sram (h / 256 * 256)) ∧ y.nextAt = s.cycle + 8 ∧ y.ports = x.ports ∧
         (∀ b, b ∈ [2, 3] → ∃ blk ∈ freeNow t, vget y.ptrs b none = some ⟨blk, false, false⟩) ∧
         (tileOf u r.val).free.length + 2 = t.free.length ∧ SramButLog t (tileOf u r.val) ∧ (tileOf u r.val).loanQ = [] ∧
         (∀ j, j < 64 → (vreg (tileOf u r.val) l.val (16 + j / 4)).map (fun v => lane v 32 (j % 4)) = some (accWord s c.val row j)) ∧
         (vreg (tileOf u r.val) l.val 15).map (fun v => lane v 32 0) = some (BitVec.ofNat 32 row) ∧
         (lensOf u c.val).held = [(row, posOf r.val, l)] ∧
         (lensOf u c.val).accepted = [{ a with claim := none, pos := a.pos + 1, out := a.out ++ [row] }] ∧
         (lensOf u c.val).words = (lensOf s c.val).words ∧ (lensOf u c.val).rowOpAt = (lensOf s c.val).rowOpAt)) ∧
    (∀ (c : LensId) a row, s.bundle.tile = r → s.bundle.lamp = l → c.val = clusterOf r.val → x.rep = none → x.drain = true →
      x.row = some row → (lensOf s c.val).accepted = [a] → a.tile = posOf r.val → row ∈ a.out →
      ∃ u, exec .stop s = .next u ∧
        (let y := lampAt (tileOf u r.val) l.val
         y.st = .stopped ∧ y.drain = false ∧ y.row = none ∧ vget y.ptrs 2 none = none ∧ vget y.ptrs 3 none = none ∧
         vget y.ptrs 0 none = vget x.ptrs 0 none ∧ vget y.ptrs 1 none = vget x.ptrs 1 none) ∧
        (∀ p, vget x.ptrs 2 none = some p → p.spilled = false → p.block ∈ (tileOf u r.val).free) ∧
        (lensOf u c.val).held = (lensOf s c.val).held.filter (fun h => h.1 != row) ∧
        (lensOf u c.val).accepted = [{ a with out := a.out.filter (fun y => y != row), done := a.done + 1 }] ∧
        (∀ q w, q ≠ row → w < 64 → accWord u c.val q w = accWord s c.val q w) ∧
        ∀ w, w < 64 → accWord u c.val row w =
          if bit a.cmd.d1 34 = false then accWord s c.val row w
          else if (bankOfRow s c.val row).st = .rank then (emptyList (bankOfRow s c.val row).k).getD w 0 else 0)

/-! ## Events: lens and copy engine -/

/-- R314, R319 to R321, R323, R327, R329, R332, R334, R336, R343, R344, R346, R347, R349, R351, R353 and R466: the arbiter
grants the ready command at its pointer while that tile has credit; the load ends with the operands as SRAM holds them; the
computation begins; a block step of LMM, LMMS or LRANK adds its groups to the words of its block, a sparse one with the stored
values at the positions kept, and in LRANK the last one of a pair inserts the scores of the block in order of column; the next step
follows, or the command faults at malformed metadata; the sequencer accepts a command whose inputs are set, allocates the banks of an
allocation, and serves one row or bank a clk: ACC.ALLOC and ACC.CLR clear a row in its own mode, ACC.LOAD writes its words, ACC.MERGE
checks a list and inserts its entries one by one, ACC.FREE and ACC.OWN set banks, a DRAIN ends once its rows are released; after
the last one the command completes with its token and its status word. The model's choices in it: that the operands of a load are
read as SRAM holds them at its end unless a granule was read before (log entry 7), that the duty stretches each block step (log entry
39), that a position not kept is +0 (log entry 116). -/
def Obligations.LensSteps : Prop :=
  (∀ (s : State) (c : LensId) (i : Fin 2),
     let l := lensOf s c.val
     let ends (n : Nat) (k : KCmd) : Nat := ceilDiv (16 * (n * s.ls.duty / 16 + lmP k)) s.ls.duty - 1
     let malformed (m : Mem) (k : KCmd) (n : Nat) : Bool :=
       lmSparse k && (List.range (sparseG k)).any (fun q => (blockIdx (stepAt k n).2.1 (lmN k)).any (fun j =>
         metaBad (lmNk k) (metaBits m k ((stepAt k n).2.2 * sparseG k + q) j)))
     (∀ k rest n, let r := tileAt c.val l.ptr
       LensHeadIs (tileOf s r) k rest → isCompute k = true → (∀ j, slotOf l j = none) → (∀ j, j < 2 → vget l.freeAt j 0 ≤ s.cycle) →
       l.accepted = [] → l.held = [] → l.turn = none → vget l.credits l.ptr 0 = n + 1 → grantReason l l.ptr k = 0 →
       LensEvent s c.val r (exec (.arbiterGrant c) s) (fun t =>
         tileOf t r = withLensQ (tileOf s r) rest ∧ slotOf (lensOf t c.val) 1 = none ∧
         (lensOf t c.val).words = l.words ∧ (lensOf t c.val).ptr = l.ptr ∧
         (lensOf t c.val).credits = vset l.credits l.ptr n ∧
         ∃ x, slotOf (lensOf t c.val) 0 = some x ∧ x.tile = l.ptr ∧ x.cmd = k ∧ x.loadFrom = some s.cycle ∧
           x.loadEnd = none ∧ x.stepEnd = none ∧ x.step = 0)) ∧
     (∀ x f, slotOf l i = some x → slotOf l (otherSlot i) = none → x.loadFrom = some f → x.loadEnd = none →
       f + loadClk x.cmd ≤ s.cycle + 1 → x.early = [] → (tileOf s (tileAt c.val x.tile)).bad = [] →
       LensEvent s c.val 1024 (exec (.loadComplete c i) s) (fun t => (lensOf t c.val).words = l.words ∧
         slotOf (lensOf t c.val) i = some { x with loadEnd := some (s.cycle + 1), computeFrom := some (s.cycle + 1),
                                                   cap := (tileOf s (tileAt c.val x.tile)).sram })) ∧
     (∀ x n, slotOf l i = some x → slotOf l (otherSlot i) = none → x.computeFrom = some n → n ≤ s.cycle → x.stepEnd = none →
       l.accepted = [] → lmRank x.cmd = false → x.step < lmSteps x.cmd →
       let r := tileAt c.val x.tile
       (malformed x.cap x.cmd x.step = false → LensEvent s c.val 1024 (exec (.computeStart c i) s) (fun t =>
         (lensOf t c.val).words = l.words ∧
         slotOf (lensOf t c.val) i = some { x with stepEnd := some (ends s.cycle x.cmd) })) ∧
       (malformed x.cap x.cmd x.step = true → OwnCommand (tileOf s r) x.cmd →
         LensEvent s c.val r (exec (.computeStart c i) s) (fun t => (lensOf t c.val).words = l.words ∧
           slotOf (lensOf t c.val) i = none ∧
           LensFaulted (tileOf s r) (tileOf t r) x.cmd 10 x.step x.skipped x.done x.overflow))) ∧
     (∀ m (k : KCmd) p j, lmSparse k = true → metaBad (lmNk k) (metaBits m k (p / 48) j) = false →
       (∀ e, e < lmNk k → metaIdx (metaBits m k (p / 48) j) e = p % 48 → elemB m k p j = storedB m k (p / 48 * lmNk k + e) j) ∧
       ((∀ e, e < lmNk k → metaIdx (metaBits m k (p / 48) j) e ≠ p % 48) → elemB m k p j = .fin false 0 0)) ∧
     (∀ x e, slotOf l i = some x → slotOf l (otherSlot i) = none → x.stepEnd = some e → e ≤ s.cycle → l.bad = [] →
       malformed x.cap x.cmd (x.step + 1) = false → x.step + 1 < lmSteps x.cmd →
       let mb := (stepAt x.cmd x.step).1
       let nb := (stepAt x.cmd x.step).2.1
       let ks := (stepAt x.cmd x.step).2.2
       (lmRank x.cmd = false →
         (∀ i j i' j', i ∈ blockIdx mb (lmM x.cmd) → j ∈ blockIdx nb (lmN x.cmd) → i' ∈ blockIdx mb (lmM x.cmd) →
           j' ∈ blockIdx nb (lmN x.cmd) → outRow x.cmd i j * 64 + outWord j = outRow x.cmd i' j' * 64 + outWord j' →
           i = i' ∧ j = j') →
         LensEvent s c.val 1024 (exec (.blockStep c) s) (fun t =>
           (∃ o, slotOf (lensOf t c.val) i = some { x with
             step := x.step + 1, done := x.done + 1, overflow := o
             stepEnd := some (ends (s.cycle + 1) x.cmd) }) ∧
           (∀ i j, i ∈ blockIdx mb (lmM x.cmd) → j ∈ blockIdx nb (lmN x.cmd) →
             accWord t c.val (outRow x.cmd i j) (outWord j) =
               (addGroups x.cap x.cmd i j (accWord s c.val (outRow x.cmd i j) (outWord j)) (stepGroups x.cmd ks)).1) ∧
           ∀ row w, w < 64 → (∀ i j, i ∈ blockIdx mb (lmM x.cmd) → j ∈ blockIdx nb (lmN x.cmd) →
             outRow x.cmd i j ≠ row ∨ outWord j ≠ w) → accWord t c.val row w = accWord s c.val row w)) ∧
       (lmRank x.cmd = true → lmBnd x.cmd = false → ks + 1 = lmKs x.cmd →
         let row (i : Nat) : Nat := outRow x.cmd i 0
         let k (i : Nat) : Nat := (bankOfRow s c.val (row i)).k
         (∀ i ∈ blockIdx mb (lmM x.cmd), 1 ≤ k i ∧ k i ≤ 31 ∧ bitsN (accWord s c.val (row i) 63).toNat 0 6 ≤ k i) →
         LensEvent s c.val 1024 (exec (.blockStep c) s) (fun t =>
           (∀ i ∈ blockIdx mb (lmM x.cmd), upTo 64 (accWord t c.val (row i)) = (blockIdx nb (lmN x.cmd)).foldl (fun ws j =>
             listInsert (k i) ws (addGroups x.cap x.cmd i j 0 (upTo (lmK x.cmd / 32) id)).1 (BitVec.ofNat 32 (lmCbase x.cmd + j)))
               (upTo 64 (accWord s c.val (row i)))) ∧
           ∀ q w, w < 64 → (∀ i ∈ blockIdx mb (lmM x.cmd), row i ≠ q) → accWord t c.val q w = accWord s c.val q w)))) ∧
  (∀ (s : State) (c : LensId) (pos : Fin 8),
     let l := lensOf s c.val
     let r := tileAt c.val pos.val
     let t := tileOf s r
     (∀ k rest, LensHeadIs t k rest → isCompute k = false → k.op ≠ 0x79 → cmdBanks k ≠ [] →
       LensEvent s c.val r (exec (.bankCommandAccept c pos) s) (fun u => tileOf u r = withLensQ t rest ∧
         lensOf u c.val = { l with accepted := l.accepted ++ [⟨pos.val, k, false, 0, 0, 0, [], none, none⟩] })) ∧
     (∀ k rest, LensHeadIs t k rest → k.op = 0x79 →
       LensEvent s c.val r (exec (.bankCommandAccept c pos) s) (fun u => tileOf u r = withLensQ t rest ∧
         (lensOf u c.val).words = l.words ∧
         (lensOf u c.val).accepted = l.accepted ++ [⟨pos.val, k, true, 0, 0, 0, [], none, none⟩] ∧
         ∀ b, SMap.getD (lensOf u c.val).banks b Bank.reset =
           if fld k.d0 0 7 ≤ b ∧ b < fld k.d0 0 7 + fld k.d0 8 8 then
             ⟨if bit k.d0 16 then .rank else .sum, pos.val, fld k.d0 17 5, none⟩ else SMap.getD l.banks b Bank.reset)) ∧
     (∀ a, l.accepted = [a] → a.tile = pos.val → a.checked = true → a.claim = none → a.sub = 0 → l.held = [] →
       (∀ j, slotOf l j = none) → l.rowOpAt ≤ s.cycle → l.turn = none → l.bad = [] → t.bad = [] → OwnCommand t a.cmd →
       let n := acRows a.cmd
       let row := acFirst a.cmd + a.pos
       let nb := fld a.cmd.d0 8 8
       let bank := fld a.cmd.d0 0 7 + a.pos
       let next (more : Bool) (u : State) : Prop := (lensOf u c.val).rowOpAt = s.cycle + 1 ∧
         (more = true → (lensOf u c.val).accepted = [{ a with pos := a.pos + 1, done := a.done + 1 }] ∧ tileOf u r = t) ∧
         (more = false → (lensOf u c.val).accepted = [] ∧ tileOf u r = { t with eng := { t.eng with
           tok := tokensLess t a.cmd.tout
           lensStatus := vset t.eng.lensStatus a.cmd.tout.toNat (BitVec.ofNat 64 ((a.done + 1) % 2 ^ 24 * 2 ^ 8)) } })
       let does (n : Nat) (P : State → Prop) : Prop := a.pos < n →
         LensEvent s c.val r (exec (.rowOperation c) s) (fun u => next (decide (a.pos + 1 < n)) u ∧ P u)
       let rowOnly (u : State) : Prop := (lensOf u c.val).banks = l.banks ∧
         ∀ q w, q ≠ row → w < 64 → accWord u c.val q w = accWord s c.val q w
       (a.cmd.op = 0x74 → does n (fun u => rowOnly u ∧
         ((bankOfRow s c.val row).st ≠ .rank → ∀ w, w < 64 → accWord u c.val row w = 0) ∧
         ((bankOfRow s c.val row).st = .rank → ∀ w, w < 64 →
           accWord u c.val row w = (emptyList (bankOfRow s c.val row).k).getD w 0))) ∧
       (a.cmd.op = 0x73 → acC0 a.cmd + acWds a.cmd ≤ 64 → does n (fun u => rowOnly u ∧ ∀ w, w < 64 →
         accWord u c.val row w = if acC0 a.cmd ≤ w ∧ w < acC0 a.cmd + acWds a.cmd then
           BitVec.ofNat 32 (Mem.load t.sram (cDst a.cmd + a.pos * acPitch a.cmd + 4 * (w - acC0 a.cmd)) 4)
           else accWord s c.val row w)) ∧
       (a.cmd.op = 0x75 →
         let base := cDst a.cmd + a.pos * acPitch a.cmd
         let hdr := Mem.load t.sram (base + 252) 4
         let keeps (u : State) : Prop := (lensOf u c.val).banks = l.banks ∧ (lensOf u c.val).words = l.words
         (a.pos < n → 31 < hdr % 64 ∨ 2 ^ 13 ≤ hdr → LensEvent s c.val r (exec (.rowOperation c) s) (fun u =>
           (lensOf u c.val).accepted = [] ∧ keeps u ∧ LensFaulted t (tileOf u r) a.cmd 12 a.pos 0 a.done false)) ∧
         (hdr < 2 ^ 13 → hdr % 64 = 0 → does n keeps) ∧
         (a.pos < n → hdr < 2 ^ 13 → 0 < hdr % 64 → hdr % 64 ≤ 31 → LensEvent s c.val r (exec (.rowOperation c) s) (fun u =>
           keeps u ∧ tileOf u r = t ∧ (lensOf u c.val).rowOpAt = s.cycle + 1 ∧
           (lensOf u c.val).accepted = [{ a with sub := 1 }]))) ∧
       (a.cmd.op = 0x77 → does nb (fun u => (lensOf u c.val).words = l.words ∧
         ∀ b, SMap.getD (lensOf u c.val).banks b Bank.reset = if b = bank then Bank.reset else SMap.getD l.banks b Bank.reset)) ∧
       (a.cmd.op = 0x78 → does nb (fun u => (lensOf u c.val).words = l.words ∧
         ∀ b, SMap.getD (lensOf u c.val).banks b Bank.reset =
           let x := SMap.getD l.banks b Bank.reset
           if b = bank then { x with owner := if bit a.cmd.d0 18 then none else some (BitVec.ofNat 2 (fld a.cmd.d0 16 2)) }
           else x))) ∧
     (∀ a, l.accepted = [a] → a.tile = pos.val → l.rowOpAt ≤ s.cycle → l.turn = none →
       (∀ j, slotOf l j = none) → l.held = [] → l.bad = [] → t.bad = [] →
       let row := acFirst a.cmd + a.pos
       (a.cmd.op = 0x79 → a.checked = true → a.pos < 32 * fld a.cmd.d0 8 8 →
         let cleared := fld a.cmd.d0 0 7 * 32 + a.pos
         LensEvent s c.val r (exec (.rowOperation c) s) (fun u => tileOf u r = t ∧ (lensOf u c.val).rowOpAt = s.cycle + 1 ∧
           (lensOf u c.val).banks = l.banks ∧
           (lensOf u c.val).accepted = (if a.pos + 1 = 32 * fld a.cmd.d0 8 8 then []
             else [{ a with pos := a.pos + 1, sub := 0, done := a.done + 1 }]) ∧
           (∀ q w, q ≠ cleared → w < 64 → accWord u c.val q w = accWord s c.val q w) ∧
           ∀ w, w < 64 → accWord u c.val cleared w = if (bankOfRow s c.val cleared).st = .rank then
             (emptyList (bankOfRow s c.val cleared).k).getD w 0 else 0)) ∧
       (a.cmd.op = 0x75 → a.pos < acRows a.cmd → 1 ≤ a.sub →
         let base := cDst a.cmd + a.pos * acPitch a.cmd
         let n := Mem.load t.sram (base + 252) 4 % 64
         let e := a.sub - 1
         let new := listInsert (bankOfRow s c.val row).k (upTo 64 (accWord s c.val row))
           (BitVec.ofNat 32 (Mem.load t.sram (base + 8 * e) 4)) (BitVec.ofNat 32 (Mem.load t.sram (base + 8 * e + 4) 4))
         1 ≤ (bankOfRow s c.val row).k → (bankOfRow s c.val row).k ≤ 31 →
         bitsN (accWord s c.val row 63).toNat 0 6 ≤ (bankOfRow s c.val row).k →
         (a.sub < n ∨ (n ≤ a.sub ∧ a.pos + 1 < acRows a.cmd)) →
         LensEvent s c.val r (exec (.rowOperation c) s) (fun u => tileOf u r = t ∧ (lensOf u c.val).rowOpAt = s.cycle + 1 ∧
           (lensOf u c.val).banks = l.banks ∧
           (lensOf u c.val).accepted = (if a.sub < n then [{ a with sub := a.sub + 1 }]
             else [{ a with pos := a.pos + 1, sub := 0, done := a.done + 1 }]) ∧
           (∀ q w, q ≠ row → w < 64 → accWord u c.val q w = accWord s c.val q w) ∧
           ∀ w, w < 64 → accWord u c.val row w = new.getD w 0)) ∧
       (a.cmd.op = 0x76 → acRows a.cmd ≤ a.pos → a.out = [] → OwnCommand t a.cmd →
         (a.stopped = none → LensEvent s c.val r (exec (.rowOperation c) s) (fun u =>
           lensOf u c.val = { l with accepted := [] } ∧ tileOf u r = { t with eng := { t.eng with
             tok := tokensLess t a.cmd.tout
             lensStatus := vset t.eng.lensStatus a.cmd.tout.toNat (BitVec.ofNat 64 (a.done % 2 ^ 24 * 2 ^ 8)) } })) ∧
         ∀ x, a.stopped = some x → LensEvent s c.val r (exec (.rowOperation c) s) (fun u =>
           lensOf u c.val = { l with accepted := [] } ∧ LensFaulted t (tileOf u r) a.cmd 11 x 0 a.done false))))

/-- R208, R210, R283, R285, R287, R295: the copy engine starts the head of its queue once its input tokens are set, for 1 clk per 64
bytes; at the end CP.MOVE of one row and CP.FILL have written their bytes and no other but those of an open undo log (R222), and the
token falls; a command that fails a check at its start completes in the next clk, writes nothing and sets the event of its fault.
That a command whose accesses no clk of the run has served reads and writes at its completion is the model's choice (log entry
7). -/
def Obligations.CopyEngineSteps : Prop :=
  ∀ (s : State) (r : TileId) (k : KCmd),
    let t := tileOf s r.val
    let n := mvBytes k
    let head (rest : List KCmd) : Prop := t.copyRun = none ∧ t.stCopy = none ∧ t.keeper.debugHalt = false ∧
      t.keeper.preempted = false ∧ t.parkSeen = false ∧ t.drainSeen = false ∧ t.bad = [] ∧ copyStands r s = false ∧
      t.eng.copyQ = k :: rest ∧ k.station = false ∧ inputsSet t k = true
    (∀ rest, head rest → k.op ∈ [(0x40 : BitVec 7), 0x41, 0x42, 0x43, 0x44, 0x46, 0x49] →
      TileEvent s r.val (exec (.copyCommandStart r) s) (fun u => ∃ m, u = { t with
        eng := { t.eng with copyQ := rest }
        copyRun := some ⟨k, s.cycle + Nat.max 1 (ceilDiv m 64), 0, [], [], none, [], (copyGranules t 0 m k).1,
          (copyGranules t 0 m k).2, [], 0, s.cycle + 1⟩ } ∧
        (k.op = 0x40 → m = cN k * n) ∧ (k.op = 0x49 → m = n))) ∧
    (∀ rest why words, head rest → t.badWs = [] → (lensOf s (clusterOf r.val)).bad = [] → drainBefore s r.val k = false →
      copyStartReason s r.val k = (why, words) → why ≠ 0 →
      TileEvent s r.val (exec (.copyCommandStart r) s) (fun u => u = { t with
        eng := { t.eng with copyQ := rest }
        copyRun := some ⟨k, s.cycle + 1, words, [], [], some (why, k.op == 0x47 || k.op == 0x48), [], [], [], [], 0,
          s.cycle + 1⟩ })) ∧
    (∀ x, t.copyRun = some x → x.cmd = k → x.early = [] → x.wrote = [] → x.fail = none → x.doneAt ≤ s.cycle →
      t.keeper.debugHalt = false → t.freezes = [] →
      t.failing = [] → t.bad = [] → OwnCommand t k →
      (t.ckpt = none ∨ (cDst k + n ≤ 0x1D0000 ∧ cSrc k + n ≤ 0x1D0000)) →
      let ends (P : Mem → Prop) : Prop := TileEvent s r.val (exec (.copyComplete r) s) (fun u => u.copyRun = none ∧
        u.eng = { t.eng with tok := tokensLess t k.tout } ∧ u.keeper = t.keeper ∧ u.ws = t.ws ∧ u.act = t.act ∧
        (∀ x, (x < cDst k ∨ cDst k + n ≤ x) → (t.ckpt = none ∨ x < 0x1D3000 ∨ 0x1F0000 ≤ x) →
          Mem.read u.sram x = Mem.read t.sram x) ∧ P u.sram)
      (k.op = 0x49 → cDst k % 16 = 0 → n % 16 = 0 →
        ends (fun m => ∀ i, i < n → Mem.read m (cDst k + i) = k.d2.extractLsb' (8 * (i % 8)) 8)) ∧
      (k.op = 0x40 → k.sub = 0 → cN k = 1 → (cSrc k + n ≤ cDst k ∨ cDst k + n ≤ cSrc k) →
        ends (fun m => ∀ i, i < n → Mem.read m (cDst k + i) = Mem.read t.sram (cSrc k + i)))) ∧
    (∀ x why acc, t.copyRun = some x → x.cmd = k → x.fail = some (why, acc) → x.doneAt ≤ s.cycle → t.keeper.debugHalt = false →
      t.freezes = [] → t.failing = [] → t.bad = [] → t.badWs = [] → (lensOf s (clusterOf r.val)).bad = [] → OwnCommand t k →
      why ≠ 0 →
      TileEvent s r.val (exec (.copyComplete r) s) (fun u => u = { t with
          copyRun := none
          ctrl := { t.ctrl with events := t.ctrl.events ||| oneBit (if acc then 33 else 34) }
          eng := { t.eng with tok := tokensLess t k.tout, copyFault := u.eng.copyFault } } ∧
        (bit t.eng.copyFault 63 = false → u.eng.copyFault =
          BitVec.ofNat 64 (2 ^ 63 + k.tout.toNat * 2 ^ 56 + k.op.toNat * 2 ^ 49 + why * 2 ^ 44))))

/-- R205, R284, R287, R288, R295, R285: at its completion a CP.MOVE of several rows has copied each row, the last one written
remaining, through the skew mapping on the sides that ask for it; CP.GATHER has filled its rows from those that the index list names, or
with zeros, and CP.SCATTER has spread its rows, the last of two that meet remaining; a row whose indexed side is out of bounds
ends the command FAULT with reason 6 at that row; CP.FILL has filled its range. Source and destination do not overlap. That the skew
registers count as they stand at the completion is the model's choice (log entry 121), as is the time of an access that no clk of
the run has served (log entry 7). -/
def Obligations.CopyOfRowsAndIndexedRows : Prop :=
  ∀ (s : State) (r : TileId) (x : CopyRun),
    let t := tileOf s r.val
    let k := x.cmd
    let m := seenBy t x
    let n := cN k
    (k.op = 0x40 → cSrc k % 16 = 0 → cDst k % 16 = 0 → mvBytes k % 16 = 0 → mvSst k % 16 = 0 → mvDst k % 16 = 0 →
      let from_ (a : Nat) : Nat := if k.sub.getLsbD 0 then skewMap t a else a
      let into (a : Nat) : Nat := if k.sub.getLsbD 1 then skewMap t a else a
      let src (i j : Nat) : Nat := from_ (cSrc k + i * mvSst k + j)
      let dst (i j : Nat) : Nat := into (cDst k + i * mvDst k + j)
      (∀ i j j', i < n → j < mvBytes k → j' < mvBytes k → dst i j = dst i j' → j = j') →
      CopyEnds s r x (fun a => ∃ i j, i < n ∧ j < mvBytes k ∧ a = src i j)
        (fun a b => ∃ i j, i < n ∧ j < mvBytes k ∧ a = dst i j ∧ b = Mem.read m (src i j) ∧
          ∀ i' j', i < i' → i' < n → j' < mvBytes k → a ≠ dst i' j') none (PlainCopy s r)) ∧
    (k.op = 0x49 → cDst k % 16 = 0 → mvBytes k % 16 = 0 →
      CopyEnds s r x (fun _ => False)
        (fun a b => ∃ j, j < mvBytes k ∧ a = cDst k + j ∧ b = k.d2.extractLsb' (8 * (j % 8)) 8) none (PlainCopy s r)) ∧
    (let w := mvSst k
     let idx (i : Nat) : Nat := Mem.load m (cLo1 k + 4 * i) 4
     let named (i : Nat) : Prop := idx i < 2 ^ 31
     let far (i : Nat) : Nat := (if k.op = 0x41 then cSrc k else cDst k) + idx i * mvDst k
     let fits_ (i : Nat) : Prop := named i → w ≠ 0 → inBounds t k.station (far i) w = true
     let list (a : Nat) : Prop := cLo1 k ≤ a ∧ a < cLo1 k + 4 * n
     ∀ i0 why, i0 ≤ n → (∀ i, i < i0 → fits_ i) → ((i0 = n ∧ why = none) ∨ (i0 < n ∧ ¬ fits_ i0 ∧ why = some (6, i0))) →
       (k.op = 0x41 →
         CopyEnds s r x (fun a => list a ∨ ∃ i, i < i0 ∧ named i ∧ far i ≤ a ∧ a < far i + w)
           (fun a b => ∃ i j, i < i0 ∧ j < w ∧ a = cDst k + i * w + j ∧
             ((named i ∧ b = Mem.read m (far i + j)) ∨ (¬ named i ∧ b = 0))) why (PlainCopy s r)) ∧
       (k.op = 0x42 →
         CopyEnds s r x (fun a => list a ∨ (cSrc k ≤ a ∧ a < cSrc k + n * w))
           (fun a b => ∃ i j, i < i0 ∧ named i ∧ j < w ∧ a = far i + j ∧ b = Mem.read m (cSrc k + i * w + j) ∧
             ∀ i', i < i' → i' < i0 → named i' → (a < far i' ∨ far i' + w ≤ a)) why (PlainCopy s r)))

/-- R29, R40 to R42, R34 to R39, R54, R289 to R294, R305, R327: what the other copy commands have done at their completion. CP.PLANE
has written the planes and the side items, CP.UNPLANE the elements, and the one undoes the other; CP.PX8 has written the stream or
the decoded blocks up to a malformed one (reason 5) or an overflow under TRAP (reason 4); CP.CVT and CP.ACC have written the
converted elements up to the first that overflows under TRAP, and with `.clr` the words read are zero, a RANK row empty; CP.TOPK has
written its best pairs; LSPILL.out has written its blocks and freed them, LSPILL.in has filled those it claimed, as many as there
were spilled pointers whatever n was (the model's reading, log entry 122). Source and destination do not overlap. -/
def Obligations.CopyConversionsAndSpills : Prop :=
  (∀ (s : State) (r : TileId) (x : CopyRun),
    let t := tileOf s r.val
    let k := x.cmd
    let m := seenBy t x
    let n := cN k
    let within (lo len : Nat) (a : Nat) : Prop := lo ≤ a ∧ a < lo + len
    (∀ w sw ew ty, planeFmt (plFmt k) = some (w, sw, ew) → fmtCode (plFmt k) = some ty → plK k % 128 = 0 → plKs k ≤ plK k →
      plKs k * ew ≤ plPitch k * 8 → cSrc k % 16 = 0 → cDst k % 16 = 0 → plPitch k % 16 = 0 →
      let row (i : Nat) : Nat := cSrc k + i * plPitch k
      let bytes := ceilDiv (plKs k * ew) 8
      let planeAt (q i c : Nat) : Nat := cDst k + q * (n * plK k / 8) + i * (plK k / 8) + c
      let sideAt (i j : Nat) : Nat := cLo1 k + (i * plK k + j) * sw
      (k.op = 0x43 → (sw = 0 ∨ cDst k + w * (n * plK k / 8) ≤ cLo1 k ∨ cLo1 k + n * plK k * sw ≤ cDst k) →
        let el (i j : Nat) : Nat := if j < plKs k then itemAt m (row i) ew j else 0
        CopyEnds s r x (fun a => ∃ i, i < n ∧ within (row i) bytes a)
          (fun a b =>
            (∃ q i c, q < w ∧ i < n ∧ c < plK k / 8 ∧ a = planeAt q i c ∧
              ∀ y, y < 8 → b.getLsbD y = (sigOf ty (el i (8 * c + y))).testBit (w - 1 - q)) ∨
            (∃ i j o, i < n ∧ j < plK k ∧ o < sw ∧ a = sideAt i j + o ∧
              b = BitVec.ofNat 8 ((if j < plKs k then sideOf ty sw (el i j) else 0) / 2 ^ (8 * o)))) none (PlainCopy s r)) ∧
      (k.op = 0x44 →
        let el (i j : Nat) : Nat :=
          fromPlanes ty sw (sumN ((List.range w).map (fun q =>
              (if (Mem.read m (planeAt q i (j / 8))).getLsbD (j % 8) then 2 ^ (w - 1 - q) else 0))))
            (if sw = 0 then 0 else Mem.load m (sideAt i j) sw)
        CopyEnds s r x (fun a => within (cDst k) (w * (n * plK k / 8)) a ∨ (sw ≠ 0 ∧ within (cLo1 k) (n * plK k * sw) a))
          (fun a b => ∃ i o, i < n ∧ o < bytes ∧ a = row i + o ∧
            b = itemByte ew (fun j => if j < plKs k then el i j else itemAt m (row i) ew j) o) none (PlainCopy s r)) ∧
      ∀ e, e < 2 ^ ew → fromPlanes ty sw (sigOf ty e) (sideOf ty sw e) = e) ∧
    (k.op = 0x45 → cDst k % 16 = 0 →
      let stream (bs : List Byte) (a : Nat) (b : Byte) : Prop := ∃ o, (padStream (cDst k) bs)[o]? = some b ∧ a = cDst k + o
      (k.sub = 0 → CopyEnds s r x (fun a => within (cSrc k) (32 * n) a ∨ within (cLo1 k) (2 * n) a)
        (stream (px8Stream ((List.range n).map (fun b =>
          px8EncodeBlock ((List.range 32).map (fun j => (Mem.read m (cSrc k + 32 * b + j)).toNat)) (Mem.load m (cLo1 k + 2 * b) 2)))))
        none (PlainCopy s r)) ∧
      (k.sub = 3 → ∀ bs why, bs = encbfBlocks m k n 0 →
        ((bs.length = n ∧ why = none) ∨ (bs.length < n ∧ why = some (4, bs.length))) →
        CopyEnds s r x (within (cSrc k) (64 * n)) (stream (px8Stream bs)) why (PlainCopy s r)) ∧
      (∀ (nb : Nat) (pos : Nat → Nat) (blk : Nat → Px8Block) (end_ : Option (Nat × Nat)), nb ≤ n → pos 0 = 0 →
        (∀ b, b < nb → blockAt m k x.words (pos b) = some (blk b) ∧ pos (b + 1) = pos b + (blk b).len) →
        ((nb = n ∧ end_ = none) ∨ (nb < n ∧ blockAt m k x.words (pos nb) = none ∧ end_ = some (5, nb))) →
        let reads := within (cSrc k) (4 + 4 * x.words)
        (k.sub = 1 → (cDst k + 32 * n ≤ cLo1 k ∨ cLo1 k + 2 * n ≤ cDst k) →
          CopyEnds s r x reads (fun a b => ∃ y, y < nb ∧
            ((∃ j, j < 32 ∧ a = cDst k + 32 * y + j ∧ b = BitVec.ofNat 8 ((blk y).elems.getD j 0)) ∨
             (∃ o, o < 2 ∧ a = cLo1 k + 2 * y + o ∧ b = BitVec.ofNat 8 ((blk y).scale / 2 ^ (8 * o))))) end_ (PlainCopy s r)) ∧
        (k.sub = 2 →
          let out (e : Nat) : Conv := px8Bf16Elem (copyRnd k) (copyTrap k) false (blk (e / 32)).scale ((blk (e / 32)).elems.getD (e % 32) 0)
          ∀ e0 why, e0 ≤ 32 * nb → (∀ e, e < e0 → (out e).trap = false) →
            ((e0 = 32 * nb ∧ why = end_) ∨ (e0 < 32 * nb ∧ (out e0).trap = true ∧ why = some (4, e0))) →
            CopyEnds s r x reads (fun a b => ∃ e o, e < e0 ∧ o < 2 ∧ a = cDst k + 2 * e + o ∧
              b = BitVec.ofNat 8 ((out e).bits / 2 ^ (8 * o))) why (PlainCopy s r)))) ∧
    (∀ a b, k.op = 0x46 → fmtCode (cvSf k) = some a → fmtCode (cvDf k) = some b → cSrc k % 16 = 0 → cDst k % 16 = 0 →
      cvN k * a.width % 128 = 0 → cvN k * b.width % 128 = 0 →
      let out (e : Nat) : Conv := convElem k a b (itemAt m (cSrc k) a.width e)
      ∀ e0 why, e0 ≤ cvN k → (∀ e, e < e0 → (out e).trap = false) →
        ((e0 = cvN k ∧ why = none) ∨ (e0 < cvN k ∧ (out e0).trap = true ∧ why = some (4, e0))) →
        CopyEnds s r x (within (cSrc k) (cvN k * a.width / 8)) (fun adr y => ∃ o, o < cvN k * b.width / 8 ∧ adr = cDst k + o ∧
          y = itemByte b.width (fun e => if e < e0 then (out e).bits % 2 ^ b.width else itemAt m (cDst k) b.width e) o)
          why (PlainCopy s r))) ∧
  (∀ (s : State) (r : TileId) (x : CopyRun),
    let t := tileOf s r.val
    let k := x.cmd
    let c := clusterOf r.val
    let clr := k.sub.getLsbD 0
    let rank (i : Nat) : Prop := (bankOfRow s c (acFirst k + i)).st = .rank
    let cleared (v : State) (goes : Nat → Nat → Prop) : Prop := (lensOf v c).banks = (lensOf s c).banks ∧
      (∀ q w, w < 64 → (clr = false ∨ q < acFirst k ∨ acFirst k + acRows k ≤ q) → accWord v c q w = accWord s c q w) ∧
      (clr = true → ∀ i w, i < acRows k → w < 64 →
        (rank i → accWord v c (acFirst k + i) w = (emptyList (bankOfRow s c (acFirst k + i)).k).getD w 0) ∧
        (¬ rank i → (acC0 k ≤ w ∧ w < acC0 k + acWds k ∧ goes i (w - acC0 k)) → accWord v c (acFirst k + i) w = 0) ∧
        (¬ rank i → ¬ (acC0 k ≤ w ∧ w < acC0 k + acWds k ∧ goes i (w - acC0 k)) →
          accWord v c (acFirst k + i) w = accWord s c (acFirst k + i) w))
    let tileSame (v : State) : Prop := (tileOf v r.val).ws = t.ws ∧ (tileOf v r.val).act = t.act
    (acC0 k + acWds k ≤ 64 → 0 < acWds k →
      (∀ d, k.op = 0x47 → fmtCode (acDf k) = some d → acWds k * d.width % 128 = 0 → d.width ≠ 4 → cDst k % 16 = 0 →
        acPitch k % 16 = 0 → (acRows k ≤ 1 ∨ acWds k * d.width / 8 ≤ acPitch k) → (∀ i, i < acRows k → rank i → accRaw k = true) →
        let out (e : Nat) : Conv := convElem k (if acInt k then .int true 32 else .flt fp32) d
          (accWord s c (acFirst k + e / acWds k) (acC0 k + e % acWds k)).toNat
        ∀ e0 why, e0 ≤ acRows k * acWds k → (∀ e, e < e0 → (out e).trap = false) →
          ((e0 = acRows k * acWds k ∧ why = none) ∨ (e0 < acRows k * acWds k ∧ (out e0).trap = true ∧ why = some (4, e0))) →
          CopyEnds s r x (fun _ => False) (fun a b => ∃ i o, i < acRows k ∧ o < acWds k * d.width / 8 ∧
              a = cDst k + i * acPitch k + o ∧
              b = itemByte d.width (fun j => if i * acWds k + j < e0 then (out (i * acWds k + j)).bits % 2 ^ d.width
                else itemAt t.sram (cDst k + i * acPitch k) d.width j) o)
            why (fun v => tileSame v ∧ cleared v (fun i j => i * acWds k + j < e0))) ∧
      (k.op = 0x48 → (∀ i, i < acRows k → ¬ rank i) → 8 * topPairs k ≤ acPitch k →
        let pairs (i : Nat) : List (W32 × W32) :=
          topkRow k ((List.range (acWds k)).map (fun j => accWord s c (acFirst k + i) (acC0 k + j)))
        CopyEnds s r x (fun _ => False) (fun a b => ∃ i j o p, i < acRows k ∧ o < 8 ∧ (pairs i)[j]? = some p ∧
            a = cDst k + i * acPitch k + 8 * j + o ∧ b = (p.2 ++ p.1).extractLsb' (8 * o) 8)
          none (fun v => tileSame v ∧ cleared v (fun _ _ => True)))) ∧
    (k.op = 0x58 → k.sub = 0 →
      let xs := ((spillOrder t.saved).filter (fun p => !p.2.2)).take (fld k.d0 32 9)
      CopyEnds s r x (fun _ => False) (fun a b => ∃ i p j o, xs[i]? = some p ∧ j < 8 ∧ o < 16 ∧
          a = cSrc k + 128 * i + 16 * j + o ∧ b = (SMap.getD t.ws (p.2.1 * 8 + j) 0).extractLsb' (8 * o) 8) none
        (fun v => (tileOf v r.val).free = t.free ++ xs.map (fun p => p.2.1) ∧ (tileOf v r.val).ws = t.ws ∧
          (tileOf v r.val).act = t.act ∧ v.lenses = s.lenses ∧
          ∀ l b w, l < 16 → b < 4 → vget (vget t.saved.lamps l Lamp.reset).ptrs b none = some w →
            vget (vget (tileOf v r.val).saved.lamps l Lamp.reset).ptrs b none =
              some { w with spilled := w.spilled || xs.any (fun p => p.1 == (true, l, b)) })) ∧
    (k.op = 0x58 → k.sub = 1 → x.blocks.Nodup →
      CopyEnds s r x (fun _ => False) (fun _ _ => False) none (fun v => v.lenses = s.lenses ∧
        (tileOf v r.val).free = t.free ∧
        (∀ i blk j, x.blocks[i]? = some blk → j < 8 →
          SMap.getD (tileOf v r.val).ws (blk * 8 + j) 0 = Mem.granule (seenBy t x) (cSrc k + 128 * i + 16 * j)) ∧
        (∀ n, n / 8 ∉ x.blocks → SMap.getD (tileOf v r.val).ws n 0 = SMap.getD t.ws n 0) ∧
        ∀ l, l < 16 → lampAt (tileOf v r.val) l =
          { lampAt t l with fills := (lampAt t l).fills.filter (fun p => decide (p.1 < 8)) }))) ∧
  (∀ (k : KCmd) (ws : List W32), ws.length ≤ 64 →
    let xs := (ws.zipIdx.filter (fun p => !(fp32.decode p.1.toNat).isNan)).map (fun p =>
      (p.1, BitVec.ofNat 32 (acBase k + acC0 k + p.2)))
    (topkRow k ws).length = Nat.max (topPairs k) (Nat.min (acK k) xs.length) ∧
    (∀ j p, (topkRow k ws)[j]? = some p →
      (j < acK k → j < xs.length → p ∈ xs ∧ (xs.filter (fun y => pairBefore y p)).length = j) ∧
      (acK k ≤ j ∨ xs.length ≤ j → p = (0xFF800000, 0xFFFFFFFF))))

/-! ## Events: message engine -/

/-- R248, R256, R262 to R269 and R274: the message events name units with a message engine; a local rank without one is
no unit (log entry 92); the sender's side at a tile: a send starts with its sequence number and fetches its buffer at the banks' turns
(the times are log entry 7's); an RTS goes out at once, an EAGER header with its data once that has been read; a CTS brings as much
DATA as has been read, an ACK the completion, of an SSEND not before its CTS, a STUB the wait for a CTS, a NACK a retry after
1,500 clk, doubling up to 96,000; ABORT and REFUSE complete with their status. -/
def Obligations.SenderEvents : Prop :=
  (∀ (s : State) (e : BitVec 16) (n : Nat) (peer : W32) (g : BitVec 12), 0x420 ≤ e.toNat → e.toNat ≠ 0x800 →
     ∀ i ∈ [Instr.eager e n, .rts e n, .cts e n, .data e n, .ack e n, .stub e n, .nack e n, .nackRetry e n, .abort e n,
         .refuse e n, .orderedComplete e n, .streamRetire e peer g, .peerLeave e peer],
       exec i s = .fault .noSuchUnit) ∧
  (∀ (s : State) (r : TileId) (n : Nat) (m : MSlot),
     let t := tileOf s r.val
     let e := BitVec.ofNat 16 r.val
     OnlySlot t n m →
     (m.kind = .send ∨ m.kind = .ssend → m.st = .waiting → m.subs = [] → t.msg.sends = [] → slotInputs t m = true →
       t.msg.quiesced = false → t.keeper.preempted = false → t.parkSeen = false → m.group ≠ 0xFFF → domsOf s r.val m.peer = [] →
       m.early = [] → t.bad = [] →
       let eager := m.kind = .send ∧ m.len ≤ fld t.ctrl.eagermax 0 6 * 256
       TileEvent s r.val (exec (.sendStart r n) s) (fun u =>
         u.sram = t.sram ∧ u.ctrl = t.ctrl ∧ u.eng.tok = t.eng.tok ∧ u.msg.sends = [⟨m.peer, m.group, m.job, 1, 1⟩] ∧
         SlotIs t u n (fun q => q.st = .header ∧ q.msgLen = m.len ∧ q.payload.length = m.len ∧
           q.todo.map (fun p => p.addr) = spanGranules m.buf m.len ∧
           (∀ p ∈ q.todo, p.since = s.cycle ∧ p.bytes = [] ∧ p.src = none ∧ p.add = false) ∧
           ∃ x, q.subs = [x] ∧ x.dst = m.peer ∧ x.seq = 0 ∧ x.st = .header ∧ (x.eager = true ↔ eager)) ∧
         (¬ eager → Sends s t u [ctlPkt s r.val .rts m.peer m.tag m.group 0 m.job m.len 0]) ∧
         (eager → Sends s t u (if m.len = 0 then [ctlPkt s r.val .eager m.peer m.tag m.group 0 m.job 0 0] else [])))) ∧
     (∀ x, m.kind = .send ∨ m.kind = .ssend → m.st = .header → m.subs = [x] → x.due = false → SlotAtBanks s r n m → m.group ≠ 0xFFF →
       m.payload.length = m.len → m.len ≤ 4096 → (∀ p ∈ m.todo, p.addr % 16 = 0 ∧ p.bytes = [] ∧ p.add = false) →
       let left := piecesLeft s t m.todo
       let taken (i : Nat) (b : Byte) : Prop :=
         ((∃ p, Granted s t m.todo p ∧ p.addr = (m.buf + i) / 16 * 16) → b = Mem.read t.sram (m.buf + i)) ∧
         ((¬ ∃ p, Granted s t m.todo p ∧ p.addr = (m.buf + i) / 16 * 16) → b = m.payload.getD i 0)
       TileEvent s r.val (step s) (fun u => u.sram = t.sram ∧ u.eng.tok = t.eng.tok ∧ u.ctrl = t.ctrl ∧
         ∃ bs, bs.length = m.len ∧ (∀ i, i < m.len → taken i (bs.getD i 0)) ∧
           SlotIs t u n (fun q => q = { m with payload := bs, todo := left }) ∧
           Sends s t u (if left = [] ∧ x.eager = true then
             [{ ctlPkt s r.val .eager x.dst m.tag m.group x.seq m.job m.len 0 with payload := bs }] else []))) ∧
     (∀ k p x, m.kind = .send → m.subs = [x] → x.st = .header → x.due = false → x.doms = [] → x.acked = none →
       Arrives s t k p → p.group = m.group → p.src = x.dst → p.seq = x.seq →
       let ends (i : Instr) (status : BitVec 4) (dlv : Nat) : Prop := TileEvent s r.val (exec i s) (fun u =>
         SlotEnds t u n m.tout status m.len dlv ∧ u.sram = t.sram ∧ u.ctrl = t.ctrl ∧ Sends s t u [])
       let sub (i : Instr) (y : SubSend) : Prop := TileEvent s r.val (exec i s) (fun u => u.sram = t.sram ∧
         u.eng.tok = t.eng.tok ∧ Sends s t u [] ∧ SlotIs t u n (fun q => q = { m with subs := [y] }))
       (p.kind = .cts → x.sentTo = 0 → 0 < p.len → p.len ≤ 4096 → p.len ≤ m.payload.length →
         (p.len ≤ readUpTo m → TileEvent s r.val (exec (.cts e k) s) (fun u => u.sram = t.sram ∧ u.eng.tok = t.eng.tok ∧
           SlotIs t u n (fun q => q = { m with
             st := .data, subs := [{ x with cts := some p.len, st := .data, sentData := true, sentTo := p.len }] }) ∧
           Sends s t u [{ ctlPkt s r.val .data x.dst m.tag m.group x.seq m.job m.len 0 with
             payload := m.payload.take p.len }])) ∧
         (readUpTo m < p.len → TileEvent s r.val (exec (.cts e k) s) (fun u => u.sram = t.sram ∧ u.eng.tok = t.eng.tok ∧
           SlotIs t u n (fun q => q = { m with st := .data, subs := [{ x with cts := some p.len }] }) ∧ Sends s t u []))) ∧
       (p.kind = .ack → ends (.ack e k) (if p.offset < m.len then 1 else 0) (Nat.min m.len p.offset)) ∧
       ((∀ q ∈ t.msg.outq, q.2.kind ≠ .data) →
         (p.kind = .abort → ends (.abort e k) 3 0) ∧ (p.kind = .refuse → ends (.refuse e k) 4 0)) ∧
       (p.kind = .stub → sub (.stub e k) { x with stub := true, eager := false, sentData := false }) ∧
       (p.kind = .nack →
         let w := if x.retryWait = 0 then 1500 else Nat.min (2 * x.retryWait) 96000
         sub (.nack e k) { x with retryWait := w, retryAt := some (s.cycle + w) })) ∧
     (∀ x d, m.kind = .send → m.subs = [x] → m.st = .data → x.st = .header → x.cts = some d → x.acked = none → x.sentData = false →
       x.sentTo = 0 → m.todo = [] → 0 < d → d ≤ 4096 → d ≤ m.len → m.payload.length = m.len →
       TileEvent s r.val (exec (.sendStart r n) s) (fun u => u.sram = t.sram ∧ u.eng.tok = t.eng.tok ∧
         SlotIs t u n (fun q => q = { m with subs := [{ x with st := .data, sentData := true, sentTo := d }] }) ∧
         Sends s t u [{ ctlPkt s r.val .data x.dst m.tag m.group x.seq m.job m.len 0 with payload := m.payload.take d }])) ∧
     (∀ k p x, m.kind = .ssend → m.subs = [x] → x.st = .header → x.doms = [] → Arrives s t k p → p.kind = .ack →
       p.group = m.group → p.src = x.dst → p.seq = x.seq →
       (x.cts = none → TileEvent s r.val (exec (.ack e k) s) (fun u => u.sram = t.sram ∧ u.eng.tok = t.eng.tok ∧ Sends s t u [] ∧
         SlotIs t u n (fun q => q = { m with subs := [{ x with acked := some p.offset }] }))) ∧
       (x.cts ≠ none → TileEvent s r.val (exec (.ack e k) s) (fun u => u.sram = t.sram ∧ Sends s t u [] ∧
         SlotEnds t u n m.tout (if p.offset < m.len then 1 else 0) m.len (Nat.min m.len p.offset)))) ∧
     (∀ x d, m.kind = .send → m.subs = [x] → x.st = .header → x.due = false → x.retryAt = some d → d ≤ s.cycle →
       m.todo = [] → m.payload.length ≤ 4096 →
       TileEvent s r.val (exec (.nackRetry e n) s) (fun u => u.sram = t.sram ∧ u.eng.tok = t.eng.tok ∧
         SlotIs t u n (fun q => q = { m with subs := [{ x with retryAt := none }] }) ∧
         Sends s t u [if x.eager = true then
             { ctlPkt s r.val .eager x.dst m.tag m.group x.seq m.job m.len 0 with payload := m.payload }
           else ctlPkt s r.val .rts x.dst m.tag m.group x.seq m.job m.len 0])) ∧
     (∀ z, t.msg.sends = [z] → z.open_ = 0 → nodeOf z.peer ≠ s.ls.node → t.msg.recvs = [] →
       TileEvent s r.val (exec (.streamRetire e z.peer z.group) s) (fun u =>
         u = { t with msg := { t.msg with sends := [] } })))

/-- R257 to R260, R263 to R268, R270, R273, R276 to R278 and R281: the receiver's side at a tile: a receive is posted; a whole
EAGER message that it matches is to be written; an RTS is answered with a CTS, or stored where no receive matches; DATA is to be
written where its offset says; the banks' turns write and RECV.ADD adds (the times are log entry 7's), and with the last byte the
message is acknowledged and the receive completes; RECV.PX8 decodes its stream once it is there; a length that RECV.ADD cannot
divide is refused; a peer that leaves ends the transfer; in replay mode an entry of the match log that names no wildcard receive is
passed over, one that does is paired, or ends in FAULT where the header does not fit (log entry 120: the index then stays). -/
def Obligations.ReceiverEvents : Prop :=
  (∀ (s : State) (r : TileId) (n : Nat) (m : MSlot),
     let t := tileOf s r.val
     let e := BitVec.ofNat 16 r.val
     let w := Nat.min m.msgLen m.len
     let status : BitVec 4 := if m.len < m.msgLen then 1 else 0
     let held (x : RecvStream) : Prop := t.msg.recvs = [x] ∧ x.peer = m.src ∧ x.group = m.group ∧ x.job = m.job ∧
       x.matched = [(m.seq, n)]
     OnlySlot t n m → t.msg.quiesced = false → ringMode t = 0 → ¬ m.isSend →
     (m.st = .waiting → slotInputs t m = true → t.keeper.preempted = false → t.parkSeen = false → t.msg.hdrs = [] →
       TileEvent s r.val (exec (.receivePost r n) s) (fun u => u = { t with
         cmdStamp := t.cmdStamp + 1, eng := { t.eng with slots := [(n, { m with st := .posted, stamp := t.cmdStamp })] } })) ∧
     (∀ k p, m.st = .posted → Arrives s t k p → fits m p = true → p.seq = 0 → t.msg.recvs = [] → hasLeft s p.job r.val = false →
       p.tree = [] →
       let l := Nat.min p.len m.len
       let matched (u : Tile) (kind : PktKind) (P : MSlot → Prop) : Prop := u.sram = t.sram ∧ u.eng.tok = t.eng.tok ∧
         SlotIs t u n (fun q => q.st = .data ∧ q.src = p.src ∧ q.seq = 0 ∧ q.msgLen = p.len ∧ q.recPeer = p.src ∧
           q.recTag = p.tag ∧ q.mkind = kind ∧ q.ackEarly = false ∧ P q) ∧
         (∃ x, u.msg.recvs = [x] ∧ x.next = 1 ∧ x.matched = [(0, n)])
       (p.kind = .eager → p.payload.length = p.len → m.kind = .recv ∨ (m.kind = .recvAdd ∧ l % addSize m.d3 = 0) →
         TileEvent s r.val (exec (.eager e k) s) (fun u => u.ctrl = t.ctrl ∧ u.ckpt = none ∧
           (0 < l → matched u .eager (fun q => q.got = [(0, l)] ∧
             q.todo = piecesOf s.cycle (decide (m.kind = .recvAdd)) m.buf (p.payload.take l)) ∧ Sends s t u []) ∧
           (l = 0 → SlotEnds t u n m.tout (if m.len < p.len then 1 else 0) p.len 0 ∧ u.sram = t.sram ∧
             Sends s t u [ctlPkt s r.val .ack p.src p.tag m.group 0 p.job p.len 0] ∧
             ∃ x, u.msg.recvs = [x] ∧ x.next = 1 ∧ x.matched = []))) ∧
       (p.kind = .rts → m.kind = .recv ∨ (m.kind = .recvAdd ∧ l % addSize m.d3 = 0) → 0 < l →
         TileEvent s r.val (exec (.rts e k) s) (fun u => u.ctrl = t.ctrl ∧ u.ckpt = none ∧
           matched u .rts (fun q => q.got = [] ∧ q.todo = []) ∧
           Sends s t u [ctlPkt s r.val .cts p.src p.tag p.group 0 p.job l 0])) ∧
       (p.kind = .rts → m.kind = .recvPx8 → 0 < p.len → TileEvent s r.val (exec (.rts e k) s) (fun u => u.ckpt = none ∧
         matched u .rts (fun q => q.got = [] ∧ q.todo = []) ∧
         Sends s t u [ctlPkt s r.val .cts p.src p.tag p.group 0 p.job p.len 0])) ∧
       (p.kind = .rts → m.kind = .recvAdd → l % addSize m.d3 ≠ 0 → TileEvent s r.val (exec (.rts e k) s) (fun u =>
         SlotEnds t u n m.tout 15 p.len 0 ∧ u.sram = t.sram ∧ u.ctrl = { t.ctrl with events := t.ctrl.events ||| oneBit 35 } ∧
         Sends s t u [ctlPkt s r.val .refuse p.src p.tag p.group 0 p.job 0 0]))) ∧
     (∀ k p, m.st = .posted → Arrives s t k p → fits m p = false → p.kind = .rts → p.seq = 0 → t.msg.recvs = [] →
       t.msg.hdrs = [] → m.units = none → hasLeft s p.job r.val = false →
       TileEvent s r.val (exec (.rts e k) s) (fun u => u.sram = t.sram ∧ u.eng = t.eng ∧ Sends s t u [] ∧
         u.msg.hdrs = [⟨{ p with payload := [] }, false, [], [], []⟩])) ∧
     (∀ k p, m.st = .data → Arrives s t k p → p.kind = .data → p.src = m.src → p.seq = m.seq → p.group = m.group →
       (m.kind = .recv ∨ m.kind = .recvAdd → 0 < w → p.offset + p.payload.length ≤ w →
         m.todo ≠ [] ∨ 0 < p.payload.length ∨ gotBytes m.got < w →
         TileEvent s r.val (exec (.data e k) s) (fun u => u.sram = t.sram ∧ u.eng.tok = t.eng.tok ∧ u.ctrl = t.ctrl ∧ Sends s t u [] ∧
           SlotIs t u n (fun q => q = { m with
             got := m.got ++ [(p.offset, p.payload.length)]
             todo := m.todo ++ piecesOf s.cycle (decide (m.kind = .recvAdd)) (m.buf + p.offset) p.payload }))) ∧
       (m.kind = .recvPx8 → p.offset + p.payload.length ≤ m.msgLen → m.todo = [] →
         let q := { m with got := m.got ++ [(p.offset, p.payload.length)], stash := Mem.writeN m.stash p.offset p.payload }
         let blocks := px8DecodeBlocks (fld m.d3 32 16) (px8StreamBits (Mem.readN q.stash 0 m.msgLen))
         let out := blocks.1.zipIdx.flatMap (fun b =>
           if bit m.d3 48 then [(m.buf + 64 * b.2, b.1.elems.flatMap (fun x =>
             leBytes 2 (px8Bf16Elem .rne false false b.1.scale x).bits))]
           else [(m.buf + 32 * b.2, b.1.elems.map (BitVec.ofNat 8)), (fld m.d3 0 21 + 2 * b.2, leBytes 2 b.1.scale)])
         let todo := out.flatMap (fun o => piecesOf s.cycle false o.1 o.2)
         (gotBytes q.got < m.msgLen → TileEvent s r.val (exec (.data e k) s) (fun u => u.sram = t.sram ∧ u.eng.tok = t.eng.tok ∧
           Sends s t u [] ∧ SlotIs t u n (fun y => y = q))) ∧
         (m.msgLen ≤ gotBytes q.got → todo ≠ [] → TileEvent s r.val (exec (.data e k) s) (fun u => u.sram = t.sram ∧
           u.eng.tok = t.eng.tok ∧ Sends s t u [] ∧ SlotIs t u n (fun y => y = { q with todo := todo }))))) ∧
     (∀ x, m.st = .data → held x → SlotAtBanks s r n m → m.units = none → wanted m ≤ gotBytes m.got →
       (m.kind = .recvPx8 → ∀ p ∈ m.todo, p.add = false) → (m.kind = .recv → ∀ p ∈ m.todo, p.add = false) →
       (m.kind = .recvAdd → ∀ p ∈ m.todo, p.add = true ∧ p.bytes.length % (addTyOf m.d3).bytes = 0) →
       (∀ p ∈ m.todo, p.bytes ≠ []) →
       let left := piecesLeft s t m.todo
       let ty := addTyOf m.d3
       TileEvent s r.val (step s) (fun u => u.keeper = t.keeper ∧
         (∀ p, Granted s t m.todo p →
           (p.add = false → ∀ i, i < p.bytes.length → Mem.read u.sram (p.addr + i) = p.bytes.getD i 0) ∧
           (p.add = true → ∀ i, i < p.bytes.length / ty.bytes → Mem.load u.sram (p.addr + i * ty.bytes) ty.bytes =
             (ty.add (Mem.load t.sram (p.addr + i * ty.bytes) ty.bytes) (leAt p.bytes (i * ty.bytes) ty.bytes)).1 %
               2 ^ (8 * ty.bytes))) ∧
         (∀ a, (∀ p, Granted s t m.todo p → a < p.addr ∨ p.addr + p.bytes.length ≤ a) → Mem.read u.sram a = Mem.read t.sram a) ∧
         (left ≠ [] → SlotIs t u n (fun q => q = { m with todo := left }) ∧ u.eng.tok = t.eng.tok ∧ Sends s t u [] ∧
           u.ctrl = t.ctrl) ∧
         (left = [] →
           Sends s t u (if m.ackEarly then [] else [ctlPkt s r.val .ack m.src m.recTag m.group m.seq m.job m.msgLen (wanted m)]) ∧
           (m.kind ≠ .recvPx8 → SlotEnds t u n m.tout status m.msgLen w ∧ u.ctrl = t.ctrl) ∧
           (m.kind = .recvPx8 →
             let blocks := px8DecodeBlocks (fld m.d3 32 16) (px8StreamBits (Mem.readN m.stash 0 m.msgLen))
             SlotEnds t u n m.tout (if blocks.2 then 0 else 15) m.msgLen ((if bit m.d3 48 then 64 else 32) * blocks.1.length))))) ∧
     (∀ x, m.st = .ordered → m.kind ≠ .recvPx8 → m.units = none → held x →
       TileEvent s r.val (exec (.orderedComplete e n) s) (fun u => u.sram = t.sram ∧
         SlotEnds t u n m.tout status m.msgLen w ∧ Sends s t u [])) ∧
     (∀ x, m.st = .data → m.units = none → held x → t.msg.hdrs = [] → TileEvent s r.val (exec (.peerLeave e m.src) s) (fun u =>
       u.sram = t.sram ∧ SlotEnds t u n m.tout 4 m.msgLen 0 ∧ Sends s t u []))) ∧
  (∀ (s : State) (r : TileId),
     let t := tileOf s r.val
     let ml := t.ctrl.matchlog
     let size := 2 ^ fld ml 40 5
     let entry := Mem.load t.sram (fld ml 12 9 * 4096 + fld ml 48 16 % size * 16) 16
     ringMode t = 2 → fld ml 40 5 ≤ 15 →
     (entry / 2 ^ 71 % 2 = 0 →
       TileEvent s r.val (exec (.replayPair r) s) (fun u => u = { t with ctrl := { t.ctrl with matchlog := u.ctrl.matchlog } } ∧
         fld u.ctrl.matchlog 48 16 = (fld ml 48 16 + 1) % size ∧ ∀ b, b < 48 → bit u.ctrl.matchlog b = bit ml b)) ∧
     (∀ n m h, entry / 2 ^ 71 % 2 = 1 → entry / 2 ^ 64 % 2 ^ 7 = n → OnlySlot t n m → m.isSend = false → m.st = .posted →
       (m.anySrc = true ∨ m.anyTag = true) → t.msg.hdrs = [h] → h.pkt.job = m.job → h.pkt.src.toNat = entry % 2 ^ 32 →
       h.pkt.seq.toNat = entry / 2 ^ 32 % 2 ^ 32 → h.pkt.group.toNat = entry / 2 ^ 96 % 2 ^ 12 → h.units = [] →
       let p := h.pkt
       (fits m p = false → TileEvent s r.val (exec (.replayPair r) s) (fun u =>
         SlotEnds t u n m.tout 15 m.msgLen m.dlvLen ∧ u.sram = t.sram ∧ u.msg = t.msg ∧
         u.ctrl = { t.ctrl with matchlog := u.ctrl.matchlog, events := t.ctrl.events ||| oneBit 35 } ∧ ringMode u = 0 ∧
         ∀ b, 2 ≤ b → b < 64 → bit u.ctrl.matchlog b = bit ml b)) ∧
       (fits m p = true → m.kind = .recv → 0 < Nat.min p.len m.len → p.kind ≠ .eager ∨ h.stub = true → t.msg.recvs = [] →
         TileEvent s r.val (exec (.replayPair r) s) (fun u => u.sram = t.sram ∧ u.eng.tok = t.eng.tok ∧ u.msg.hdrs = [] ∧
           SlotIs t u n (fun q => q.st = .data ∧ q.src = p.src ∧ q.seq = p.seq ∧ q.msgLen = p.len ∧ q.recPeer = p.src ∧
             q.recTag = p.tag) ∧
           (∃ x, u.msg.recvs = [x] ∧ x.matched = [(p.seq, n)]) ∧
           Sends s t u [ctlPkt s r.val .cts p.src p.tag p.group p.seq p.job (Nat.min p.len m.len) 0] ∧
           u.ctrl = { t.ctrl with matchlog := u.ctrl.matchlog } ∧
           fld u.ctrl.matchlog 48 16 = (fld ml 48 16 + 1) % size ∧ ∀ b, b < 48 → bit u.ctrl.matchlog b = bit ml b))))

/-! ## Events: mesh and links -/

/-- R371, R374, R375, R377 to R380, R410 and R411: a packet of one cell goes on by the one productive direction, or
leaves at its tile, whose engine finds it 4 clk later (log entry 17); its buffer's credit goes back; a credit that is due returns; a
head of age 256 is promoted; a head that has stayed longer than 4,096 clk escapes, its escape bit set in its place (log entry 62); a
flit in sequence whose check sum agrees is accepted at the router of its row (log entry 11) with fresh check codes, to compete 2 clk
later (log entry 61), another one discarded with one replay request; the sender sends again what is asked, up to 8 times;
acknowledgements after 64 flits or 150 clk free the replay buffer; credits come back up to the buffer. -/
def Obligations.MeshAndLinkSteps : Prop :=
  (∀ (s : State) (r : TileId) (n : NetNode) (p : Port) (v : Fin 4),
     let k := nodeKey n
     let x := routerOf s k
     let key := portNum p * 4 + v.val
     (∀ key c pk u, OneCell s r.val key c pk → localOf pk.dst = r.val → neighbour r.val (key / 4) = some u →
       MeshEvent s (exec (.cellForward (.tile r) .loc) s) (fun t =>
         (tileOf t r.val).msg = { (tileOf s r.val).msg with inbox := (tileOf s r.val).msg.inbox ++ [(s.cycle + 4, pk)] } ∧
         (∀ q, q ≠ r.val → tileOf t q = tileOf s q) ∧ (routerOf t r.val).inBufs = [] ∧
         (routerOf t u).returns = (routerOf s u).returns ++ [(s.cycle + 1, (key / 4 + 2) % 4 * 4 + key % 4)] ∧
         ∀ j, j ≠ r.val → j ≠ u → routerOf t j = routerOf s j)) ∧
     (∀ key c pk u w (d : Fin 4), OneCell s r.val key c pk → localOf pk.dst < 0x400 → localOf pk.dst / 256 = r.val / 256 →
       nearer r.val (localOf pk.dst % 16) (localOf pk.dst % 256 / 16) = [d.val] → portNum p = d.val →
       neighbour r.val (key / 4) = some u → neighbour r.val d.val = some w →
       0 < meshFree s r.val d.val c.vc.val →
       MeshEvent s (exec (.cellForward (.tile r) p) s) (fun t => (∀ q, tileOf t q = tileOf s q) ∧
         (routerOf t r.val).inBufs = [] ∧
         SMap.getD (routerOf t r.val).used (d.val * 4 + c.vc.val) 0 = SMap.getD (routerOf s r.val).used (d.val * 4 + c.vc.val) 0 + 1 ∧
         (let to_ := (d.val + 2) % 4 * 4 + c.vc.val
          SMap.getD (routerOf t w).inBufs to_ [] = SMap.getD (routerOf s w).inBufs to_ [] ++ [{ c with at_ := s.cycle + 3 }]) ∧
         (routerOf t u).returns = (routerOf s u).returns ++ [(s.cycle + 1, (key / 4 + 2) % 4 * 4 + key % 4)])) ∧
     (∀ d w m, x.returns = [(d, w)] → d ≤ s.cycle → w / 4 = portNum p → SMap.getD x.used w 0 = m + 1 →
       ∃ y, exec (.creditReturn n p) s = .next (setRouter s k y) ∧ y = { x with returns := [], used := y.used } ∧
         SMap.getD y.used w 0 = m ∧ ∀ j, j ≠ w → SMap.getD y.used j 0 = SMap.getD x.used j 0) ∧
     (∀ h c rest, k < 2048 → x.route = [] → x.inBufs = [(key, c :: rest)] → c.head = true →
       x.heads = [(pktKey key c, h)] →
       (256 ≤ h.age → h.promoted = none → exec (.promotion n p v) s = .next (setRouter s k { x with
         heads := [(pktKey key c, { h with promoted := some s.cycle })] })) ∧
       (∀ pk, h.since + 4096 < s.cycle → c.pkt = some pk → pk.escape = false →
         exec (.escape n p v) s = .next (setRouter s k { x with
           escapes := x.escapes + 1
           inBufs := [(key, { c with pkt := some { pk with escape := true }, bytes := c.bytes.set 27 1,
                                     check := checkCodes (c.bytes.set 27 1) } :: rest)] })))) ∧
  (∀ (s : State) (l : Fin 12) (toB : Bool),
     let x := linkOf s l.val
     let d := dirOf x toB
     (∀ f rest, d.flight = f :: rest → f.arriveAt ≤ s.cycle →
       let k := (flitEnd l.val toB f.exit).1
       let key := (flitEnd l.val toB f.exit).2 * 4 + f.cell.vc.val
       (f.seq = d.expected → flitCrc f.seq f.cell = f.crc → f.cell.tail = false → LinkEvent s l.val (exec (.flit l toB true) s) (fun t =>
         DirIs s t l.val toB { d with flight := rest, expected := d.expected + 1, discarding := false,
                                      accepted := d.accepted + 1 } ∧
         SMap.getD (routerOf t k).inBufs key [] = SMap.getD (routerOf s k).inBufs key [] ++
           [{ f.cell with at_ := s.cycle + 2, check := checkCodes f.cell.bytes }] ∧
         ∀ j, j ≠ k → routerOf t j = routerOf s j)) ∧
       (∀ ok, (ok = false ∨ flitCrc f.seq f.cell ≠ f.crc ∨ f.seq ≠ d.expected) → (d.discarding = false ∨ f.seq = d.expected) →
         LinkEvent s l.val (exec (.flit l toB ok) s) (fun t => t.routers = s.routers ∧
           DirIs s t l.val toB { d with flight := rest, discarding := true, wantReplay := some d.expected })) ∧
       (∀ ok, f.seq ≠ d.expected → d.discarding = true → LinkEvent s l.val (exec (.flit l toB ok) s) (fun t =>
         t.routers = s.routers ∧ DirIs s t l.val toB { d with flight := rest }))) ∧
     (∀ q, x.st ≠ .down → d.wantReplay = some q → ((d.replay.head?).map (fun f => f.seq)) = some q →
       ((∀ f ∈ d.replay, f.tries < 8) → LinkEvent s l.val (exec (.replayRequest l toB) s) (fun t => t.routers = s.routers ∧
         let again := d.replay.map (fun f => { f with tries := f.tries + 1, arriveAt := s.cycle + 150 })
         DirIs s t l.val toB { d with wantReplay := none, replay := again, flight := d.flight ++ again,
                                      resent := d.resent + d.replay.length })) ∧
       ((∃ f ∈ d.replay, 8 ≤ f.tries) → LinkEvent s l.val (exec (.replayRequest l toB) s) (fun t => t.routers = s.routers ∧
         linkOf t l.val = { x with st := .down, qa := [], qb := [], serving := none,
                                   ab := { x.ab with wantReplay := none, flight := [] },
                                   ba := { x.ba with wantReplay := none, flight := [] } } ∧
         t.ls = { s.ls with reports := s.ls.reports ++ [(3072 + l.val, 3)] }))) ∧
     (∀ q, d.ackTo = some q → LinkEvent s l.val (exec (.linkAck l toB) s) (fun t => t.routers = s.routers ∧
       ∃ e, DirIs s t l.val toB e ∧ e = { d with ackTo := none, replay := e.replay } ∧
         ∀ f, f ∈ e.replay ↔ f ∈ d.replay ∧ 0 ≤ (f.seq - q).toInt)) ∧
     (0 < d.accepted → (64 ≤ d.accepted ∨ d.lastAck + 150 ≤ s.cycle) →
       LinkEvent s l.val (exec (.linkAckTimer l toB) s) (fun t => t.routers = s.routers ∧
         DirIs s t l.val toB { d with accepted := 0, lastAck := s.cycle, ackTo := some d.expected })) ∧
     (∀ v : Fin 4, LinkEvent s l.val (exec (.linkCredit l toB v) s) (fun t => t.routers = s.routers ∧
       DirIs s t l.val toB { d with
         credits := vset d.credits v.val (Nat.min (linkCap v.val) (vget d.credits v.val 0 + vget d.freed v.val 0))
         freed := vset d.freed v.val 0 })))

/-- R399, R414 to R417, R419 to R421, R461 and R468: training leaves sector 8, full credits, clear counters and a turn count of 0,
or a DOWN link, whose entry and whose edge's tiles are marked in the tile map (log entry 83); the turn controller serves a head that
asks the sector in force at once, and another one with 72 clk of dead time, in which the flits of the direction that loses lanes are
lost from some place on, and sent again (which ones is a free value: log entry 107), and after which the sector and the turn count
stand. -/
def Obligations.TurnControllerSteps : Prop :=
  ∀ (s : State) (l : Fin 12),
    let x := linkOf s l.val
    let loses (toB : Bool) (z y : Link) : Prop := ∃ i, i ≤ (dirOf x toB).flight.length ∧
      let d := dirOf x toB
      let lost := d.flight.drop i
      let again := lost.map (fun f => { f with tries := f.tries + 1, arriveAt := Nat.min (s.cycle + 150) (f.arriveAt + 72) })
      (lost = [] → y = z) ∧
      ((∃ f ∈ lost, 8 ≤ f.tries) → y = { z with st := .down, qa := [], qb := [], serving := none,
                                                ab := { x.ab with wantReplay := none, flight := [] },
                                                ba := { x.ba with wantReplay := none, flight := [] } }) ∧
      (lost ≠ [] → (∀ f ∈ lost, f.tries < 8) → y = setDir toB { d with
        flight := d.flight.take i ++ again, resent := d.resent + lost.length,
        replay := d.replay.map (fun f => if lost.any (fun g => g.seq == f.seq) then { f with tries := f.tries + 1 } else f) } z)
    let done (q : TurnReq) (y : Link) : SMap (Nat × Nat) :=
      if q.ticket = 0 then y.served else SMap.insert y.served q.ticket (y.turns, y.sector)
    LinkEvent s l.val (exec (.linkTraining l true) s) (fun t =>
      linkOf t l.val = { Link.reset with served := x.served }) ∧
    (∃ t, exec (.linkTraining l false) s = .next t ∧ (linkOf t l.val).st = .down ∧ (linkOf t l.val).qa = [] ∧
      (linkOf t l.val).qb = [] ∧ (linkOf t l.val).serving = none ∧ SMap.find t.ls.tileMap (3072 + l.val) = some 3 ∧
      (∀ r ∈ linkTiles l.val, SMap.find t.ls.tileMap r = some 3) ∧ t.tiles = s.tiles ∧ t.hbm = s.hbm ∧
      ∀ m, m ≠ l.val → linkOf t m = linkOf s m) ∧
    (∀ q, x.serving = none → x.st ≠ .down → x.qa = [q] → x.qb = [] →
      (q.sector = x.sector → LinkEvent s l.val (exec (.turnService l) s) (fun t =>
        linkOf t l.val = { x with qa := [], st := .steady, served := done q x })) ∧
      (q.sector ≠ x.sector → x.lastEnd.all (fun n => decide (n + 3000 ≤ s.cycle)) = true → 4 ≤ q.sector → q.sector ≤ 12 →
        LinkEvent s l.val (exec (.turnService l) s) (fun t => loses (decide (q.sector < x.sector))
          { x with qa := [], serving := some q, st := .dead, deadEnd := s.cycle + 72 } (linkOf t l.val)))) ∧
    (∀ q, x.serving = some q → x.deadEnd ≤ s.cycle → LinkEvent s l.val (exec (.deadTimeEnd l) s) (fun t =>
      let y := { x with sector := q.sector, turns := (x.turns + 1) % 65536, serving := none, st := .steady,
                        lastEnd := some s.cycle }
      linkOf t l.val = { y with served := done q y }))

/-! ## Events: domains, servers, windows -/

/-- R384, R385, R387, R388, R391 to R394, R396 to R398, R455 and R457: a window delivers a vote and a SCAN whose members have all
arrived, an announcement, and the BARX requests, of which the earliest resets a broken domain and the others come too late; a BAR
commits and is released, and the release ends what deferred a pre-emption; a domain breaks at its time-out, which records the members
that have arrived, and its waiting members complete TIMEOUT and show that record, which a parked one is owed (log entry 56). -/
def Obligations.BeaconSteps : Prop :=
  ∀ (s : State) (x : Domain), s.domains = [x] →
    let w (status : Nat) (v : W32) : W64 := BitVec.ofNat 64 (status * 2 ^ 60 + x.epoch.toNat * 2 ^ 32 + v.toNat)
    let arrived : Prop := ∀ r ∈ domTiles s x, ∃ a ∈ x.arrivals, a.tile.val = r ∧ a.clk ≤ s.cycle
    let pkg := decide (domLevel x.shape = 4)
    let delay := if domLevel x.shape = 4 then 160 else 40
    let due (n : Nat) : Prop := n + 2 ≤ s.cycle / (if domLevel x.shape = 4 then 128 else 32)
    (3 ≤ x.kind → x.kind ≤ 8 → x.broken = false → x.anns = [] → x.barx = [] → (∀ p ∈ x.parts, p.cls = 0) →
      x.arrivals ≠ [] → arrived → (∀ a ∈ x.arrivals, due a.window ∧ a.values.length = 1) →
      ∃ y v, exec (.beaconWindow pkg) s = .next { s with domains := [y] } ∧ InstanceOver x y ∧
        VoteIs (x.kind - 3) (x.arrivals.flatMap (fun a => a.values)) v ∧ GivesAll s x y (w 0 v)) ∧
    (x.kind = 2 → x.broken = false → x.anns = [] → x.barx = [] → (∀ p ∈ x.parts, p.cls ≠ 1) → x.arrivals ≠ [] → arrived →
      (x.arrivals.map (fun a => a.tile)).Nodup →
      (∀ a ∈ x.arrivals, due a.window ∧ a.values.length ≤ 16 ∧ a.station = false ∧ tileAway s x.job a.tile.val = false) →
      ∃ t y, exec (.beaconWindow pkg) s = .next t ∧ t.domains = [y] ∧ InstanceOver x y ∧ y.parts = x.parts ∧ t.hbm = s.hbm ∧
        t.lenses = s.lenses ∧ t.ls = s.ls ∧ (∀ q, (∀ a ∈ x.arrivals, a.tile.val ≠ q) → tileOf t q = tileOf s q) ∧
        ∀ a ∈ x.arrivals,
          let o := tileOf s a.tile.val
          let u := tileOf t a.tile.val
          let sum (c : Nat) (own : Bool) : Nat :=
            ((x.arrivals.filter (fun b => own || decide (b.tile.val < a.tile.val))).map (fun b => (b.values.getD c 0).toNat)).sum % 2 ^ 32
          u = { o with sram := u.sram, eng := if a.tout = 0 then o.eng else { o.eng with tok := tokensLess o a.tout } } ∧
          (∀ c, c < a.values.length → Mem.load u.sram (a.dst + 4 * c) 4 = sum c false ∧
            Mem.load u.sram (a.dst + 64 + 4 * c) 4 = sum c true) ∧
          Mem.load u.sram (a.dst + 128) 8 = (w 0 0).toNat ∧
          ∀ b, (b < a.dst ∨ a.dst + 136 ≤ b ∨ (a.dst + 4 * a.values.length ≤ b ∧ b < a.dst + 64) ∨
            (a.dst + 64 + 4 * a.values.length ≤ b ∧ b < a.dst + 128)) → Mem.read u.sram b = Mem.read o.sram b) ∧
    (x.anns = [] → (∀ p ∈ x.parts, p.cls ≠ 1) →
      let gets (y : Domain) (r : TileId) (v : W64) : Prop := ∀ p, partOf x r.val 2 = some p →
        partOf y r.val 2 = some { p with result := some v, readyAt := s.cycle, phase := false }
      let late (q : BarxReq) : Domain := { x with barx := [], broken := false, arrivals := [], kind := 0, commit := none,
                                                  epoch := q.epoch }
      (∀ q, x.barx = [q] → due q.window → x.broken = false → x.arrivals = [] →
        ∃ y, exec (.beaconWindow pkg) s = .next { s with domains := [y] } ∧ y = { x with barx := [], parts := y.parts } ∧
          gets y q.tile (w 6 0)) ∧
      (∀ q, x.barx = [q] → due q.window → x.broken = true → x.toDue = none →
        ∃ y, exec (.beaconWindow pkg) s = .next { s with domains := [y] } ∧ y = { late q with parts := y.parts } ∧
          gets y q.tile (BitVec.ofNat 64 (q.epoch.toNat * 2 ^ 32))) ∧
      (∀ q q', x.barx = [q, q'] ∨ x.barx = [q', q] → due q.window → due q'.window → q.tile ≠ q'.tile → x.broken = true →
        x.toDue = none → (q.window < q'.window ∨ (q.window = q'.window ∧ q.tile.val < q'.tile.val)) →
        ∃ y, exec (.beaconWindow pkg) s = .next { s with domains := [y] } ∧ y = { late q with parts := y.parts } ∧
          gets y q.tile (BitVec.ofNat 64 (q.epoch.toNat * 2 ^ 32)) ∧
          gets y q'.tile (BitVec.ofNat 64 (6 * 2 ^ 60 + q.epoch.toNat * 2 ^ 32)))) ∧
    (∀ a p, x.anns = [a] → x.parts = [p] → p.cls = 1 → p.result = none → p.window = a.window → due a.window →
      x.arrivals = [] → x.barx = [] → tileAway s x.job p.tile.val = false →
      ∃ t, exec (.beaconWindow pkg) s = .next t ∧
        t.domains = [{ x with anns := [], parts := [{ p with result := some 1, readyAt := s.cycle + 1, phase := false }] }] ∧
        (∀ q, q ≠ p.tile.val → tileOf t q = tileOf s q) ∧
        (tileOf t p.tile.val).keeper = (tileOf s p.tile.val).keeper ∧
        (let entry : W64 := BitVec.ofNat 64 (a.window % 65536 * 2 ^ 48 + a.tile.val * 2 ^ 32 + a.word.toNat)
         ∀ i, i < 8 → Mem.read (tileOf t p.tile.val).sram (p.buf.toNat + i) = entry.extractLsb' (8 * i) 8) ∧
        ∀ c, (c < p.buf.toNat ∨ p.buf.toNat + 8 ≤ c) →
          Mem.read (tileOf t p.tile.val).sram c = Mem.read (tileOf s p.tile.val).sram c) ∧
    (x.kind = 1 → x.commit = none → x.broken = false → arrived →
      (x.bsp = true → ∀ r ∈ domTiles s x, vget (ctxOf x.job (tileOf s r)).pending x.reg 0 = 0) →
      exec (.barCommit 0) s = .next { s with domains := [{ x with commit := some s.cycle }] }) ∧
    (∀ n, x.commit = some n → n + delay ≤ s.cycle → x.reg < 4 → (x.arrivals.map (fun a => a.tile)).Nodup →
      ∃ t y, exec (.barRelease 0) s = .next t ∧ t.domains = [y] ∧ InstanceOver x y ∧ GivesAll s x y (w 0 0) ∧
        t.hbm = s.hbm ∧ t.lenses = s.lenses ∧ (x.bsp = false → t.tiles = s.tiles) ∧
        ∀ a ∈ x.arrivals, x.bsp = true → tileAway s x.job a.tile.val = false →
          let d := vget (tileOf s a.tile.val).ctrl.dom x.reg 0
          let d' := vget (tileOf t a.tile.val).ctrl.dom x.reg 0
          bit d' 62 = !bit d 62 ∧ (∀ b, b < 64 → b ≠ 62 → bit d' b = bit d b) ∧
            (tileOf t a.tile.val).keeper.preemptBy = none ∧ (tileOf t a.tile.val).sram = (tileOf s a.tile.val).sram) ∧
    (x.broken = false → x.commit = none → (∃ a ∈ x.arrivals, a.limit ≠ 0 ∧ a.clk + a.limit ≤ s.cycle) →
      ∃ m, exec (.domainBreak 0) s = .next { s with domains :=
          [{ x with broken := true, toDue := some (s.cycle + delay), record := m }] } ∧ m.length = 16 ∧
        ∀ k r, k < 1024 → (domTiles s x)[k]? = some r →
          bit (m.getD (k / 64) 0) (k % 64) = x.arrivals.any (fun b => b.tile.val == r && decide (b.clk ≤ s.cycle))) ∧
    (∀ n, x.toDue = some n → n ≤ s.cycle → x.kind ≠ 2 →
      ∃ t y, exec (.timeoutComplete 0) s = .next t ∧ t.domains = [y] ∧ t.hbm = s.hbm ∧
        y = { x with arrivals := [], kind := 0, commit := none, toDue := none, parts := y.parts, owedMasks := y.owedMasks } ∧
        GivesAll s x y (w 5 0) ∧
        ∀ a ∈ x.arrivals,
          (tileAway s x.job a.tile.val = true → (a.tile, x.record) ∈ y.owedMasks ∧ tileOf t a.tile.val = tileOf s a.tile.val) ∧
          (tileAway s x.job a.tile.val = false →
            (∃ c, tileOf t a.tile.val = { tileOf s a.tile.val with ctrl := { (tileOf s a.tile.val).ctrl with arrival := c } }) ∧
            ∀ k, k < 16 → k < x.record.length → vget (tileOf t a.tile.val).ctrl.arrival k 0 = x.record.getD k 0))

/-- R423 to R429: a queued request takes its place, or is counted where its reply fields cannot be read; a READ or GATHER
answers with its rows, and one that fails a check with the status; a WRITE posts its receive, and with its data there stores
its rows; a REDUCE adds to them; a CONVERT stores to its destination; each of these replies with its status. -/
def Obligations.ServerSteps : Prop :=
  ∀ (s : State) (v : Fin 32) (q : ServReq),
    let x := serverOf s v.val
    let b := q.bytes
    let n := rqRowBytes b
    let word (status written : Nat) : List Byte := leBytes 8 (status + q.gen.toNat * 2 ^ 16 + written * 2 ^ 32)
    (∀ rest, x.queued = q :: rest → x.active.length < 256 → (∀ a ∈ x.active, a.checked = true ∨ a.recv ≠ none) → q.recv = none →
      (replyOk s q = false → exec (.serverDispatch v) s =
        .next { setServer s v.val { x with queued := rest } with ls := { s.ls with badReplies := s.ls.badReplies + 1 } }) ∧
      (replyOk s q = true → rqOp b < 5 →
        exec (.serverDispatch v) s = .next (setServer s v.val { x with queued := rest, active := x.active ++ [{ q with checked := true }] }))) ∧
    ((∀ l, (linkOf s l).st ≠ .down) → q.checked = true → x.active = [q] → q.slot = none → ∀ f tb, RowsAt b f → tableFor s q = some tb →
      let w := tb.getD (rqWindow b) 0
      let d := tb.getD (rqDstWindow b) 0
      let rows (bs : List Byte) : Prop := bs.length = rqRows b * n ∧
        ∀ r i, r < rqRows b → i < n → bs.getD (r * n + i) 0 = Mem.read s.hbm (hbmAddr w (f r + i))
      (∀ i, (i = .read v ∧ rqOp b = 0) ∨ (i = .gather v ∧ rqOp b = 2) →
        (rqStatus s q = 0 → rqConv b = 0 → ∃ t bs, exec i s = .next t ∧ t.hbm = s.hbm ∧ rows bs ∧
          Answers s t v.val x.eng.slots q (rqTag b) bs) ∧
        (rqStatus s q ≠ 0 → ∃ t, exec i s = .next t ∧ t.hbm = s.hbm ∧
          Answers s t v.val x.eng.slots q (rqTag b + 0x800000) (word (rqStatus s q) 0))) ∧
      (rqOp b = 1 → rqStatus s q = 0 → x.msg.hdrs = [] → ∃ t k m, exec (.write v) s = .next t ∧
        t = setServer s v.val { x with active := [{ q with slot := some k }],
                                       eng := { x.eng with slots := SMap.insert x.eng.slots k m } } ∧
        SMap.find x.eng.slots k = none ∧ m.kind = .recv ∧ m.st = .posted ∧ m.peer = q.src ∧ m.tag = BitVec.ofNat 24 (rqTag b) ∧
        m.group = 0xFFF ∧ m.job = q.job ∧ (rqConv b = 0 → m.len = rqRows b * n)) ∧
      (rqOp b = 4 → rqStatus s q = 0 → rqConv b = 0 →
        (∀ i j, i < rqRows b * n → j < rqRows b * n →
          hbmAddr d (rqDstOffset b + i) = hbmAddr d (rqDstOffset b + j) → i = j) →
        ∃ t bs, exec (.convert v) s = .next t ∧ rows bs ∧ Answers s t v.val x.eng.slots q (rqTag b) (word 0 (rqRows b * n)) ∧
          (∀ i, i < rqRows b * n → Mem.read t.hbm (hbmAddr d (rqDstOffset b + i)) = bs.getD i 0) ∧
          ∀ c, (∀ i, i < rqRows b * n → c ≠ hbmAddr d (rqDstOffset b + i)) → Mem.read t.hbm c = Mem.read s.hbm c)) ∧
    (∀ k m f tb, (∀ l, (linkOf s l).st ≠ .down) → q.checked = true → x.active = [{ q with slot := some k }] → SMap.find x.eng.slots k = some m → m.kind = .recv → m.st = .complete →
      m.status = 0 → rqConv b = 0 → m.len = rqRows b * n → m.dlvLen = rqRows b * n → RowsAt b f → tableFor s q = some tb →
      let w := tb.getD (rqWindow b) 0
      (∀ r i r' i', r < rqRows b → i < n → r' < rqRows b → i' < n → hbmAddr w (f r + i) = hbmAddr w (f r' + i') →
        r = r' ∧ i = i') →
      let others (t : State) : Prop := ∀ c, (∀ r i, r < rqRows b → i < n → c ≠ hbmAddr w (f r + i)) →
        Mem.read t.hbm c = Mem.read s.hbm c
      let answers (t : State) : Prop :=
        Answers s t v.val (SMap.erase x.eng.slots k) q (rqTag b) (word 0 (rqRows b * n))
      (rqOp b = 1 → ∃ t, exec (.write v) s = .next t ∧ answers t ∧ others t ∧
        ∀ r i, r < rqRows b → i < n → Mem.read t.hbm (hbmAddr w (f r + i)) = Mem.read m.stash (r * n + i)) ∧
      (rqOp b = 3 → let ty : AddTy := if rqEtype b = 0 then .f32 else .bf16
        n % ty.bytes = 0 → ∃ t, exec (.reduce v) s = .next t ∧ answers t ∧ others t ∧
          ∀ r i, r < rqRows b → i * ty.bytes < n →
            let at_ (h : Mem) : Nat := leNat (upTo ty.bytes (fun j => Mem.read h (hbmAddr w (f r + i * ty.bytes + j))))
            at_ t.hbm = (ty.add (at_ s.hbm) (Mem.load m.stash (r * n + i * ty.bytes) ty.bytes)).1 % 2 ^ (8 * ty.bytes)))

/-- R434, R436 to R438, R444, R445: the first WINSET takes effect in the staged table, and a refused one sets no event (log
entry 49); a WINCOMMIT is announced, and two windows later the staged table is current; the old table is released once no request of
its generation is out; images go down the boot tree as station messages (their group, tag and slots are log entry 70's), keepers start,
done words go up it and end the job. -/
def Obligations.WindowAndBootSteps : Prop :=
  ∀ (s : State) (i : Fin 4) (j : Job), s.ls.jobs[i] = some j →
    let holds (t : State) (k : Job) : Prop := t.ls = { s.ls with jobs := s.ls.jobs.set i.val (some k) }
    let gens (t : State) (n : Nat) : Prop := ∀ r ∈ jobTiles s j.id, jobOf (tileOf s r) = j.id →
      (tileOf t r).ctrl.wingen = BitVec.ofNat 64 n ∧ (tileOf t r).keeper = (tileOf s r).keeper ∧
        (tileOf t r).sram = (tileOf s r).sram
    (∀ q rest, j.winsets = q :: rest → q.station = false → q.tout ≠ 0 → j.id = jobOf (tileOf s q.tile.val) →
      (tileOf s q.tile.val).parked = none → q.window.toNat < j.staged.length →
      ∃ t, exec (.winsetComplete i) s = .next t ∧ t.tiles = (setTile s q.tile.val (let u := tileOf s q.tile.val
          { u with eng := { u.eng with tok := tokensLess u q.tout } })).tiles ∧ t.hbm = s.hbm ∧
        holds t { j with winsets := rest,
                         staged := if winOk j j.staged q.window.toNat q.entry = true then j.staged.set q.window.toNat q.entry
                                   else j.staged }) ∧
    (∀ c rest, j.commits = c :: rest → j.announced = none → j.old = none → j.winsets = [] →
      ∃ t, exec (.windowCommit i) s = .next t ∧ t.tiles = s.tiles ∧ t.hbm = s.hbm ∧
        holds t { j with announced := some (s.cycle / 128) }) ∧
    (∀ w c rest, j.announced = some w → w + 2 ≤ s.cycle / 128 → j.commits = c :: rest →
      ∃ t, exec (.generationAdvance i) s = .next t ∧ t.hbm = s.hbm ∧ gens t (65536 + (j.gen + 1).toNat) ∧
        holds t { j with cur := j.staged, old := some j.cur, gen := j.gen + 1, announced := none, commits := rest,
                         served := j.served ++ [(c.ticket, j.gen + 1)] }) ∧
    (j.old.isSome = true → s.servers = [] → (∀ r ∈ jobTiles s j.id, slotList s r = []) →
      ∃ t, exec (.oldTableRelease i) s = .next t ∧ t.hbm = s.hbm ∧ gens t j.gen.toNat ∧ holds t { j with old := none }) ∧
    (∀ r : TileId, liveJob s (jobOf (tileOf s r.val)) = some j →
      let u := tileOf s r.val
      let kids := childrenOf j r.val
      (∀ c, u.imageDone = true → kids[u.imageSent]? = some c → SMap.find u.stSlots 6 = none →
        TileEvent s r.val (exec (.imageForward r) s) (fun v => v.imageSent = u.imageSent + 1 ∧ v.sram = u.sram ∧
          v.keeper = u.keeper ∧ v.eng.slots = u.eng.slots ∧ ∃ q, v.stSlots = SMap.insert u.stSlots 6 q ∧ q.kind = .send ∧
            q.st = .header ∧ q.station = true ∧ q.job = 0xFFFF ∧ q.peer = unitRank s c ∧ q.group = 0xFFC ∧
            (∀ m, SMap.find (tileOf s c).stSlots 7 = some m → q.tag = m.tag) ∧
            q.len = (tileOf s c).image.length ∧ q.payload = (tileOf s c).image)) ∧
      (∀ m x, u.stSlots = [(7, m)] → u.eng.slots = [] → u.parked = none → m.kind = .recv → m.st = .ordered → m.station = true →
        m.group = 0xFFC → m.job = 0xFFFF → m.units = none → m.msgLen ≤ m.len → u.msg.recvs = [x] → x.peer = m.src →
        x.group = m.group → x.job = m.job → x.matched = [(m.seq, 135)] →
        TileEvent s r.val (exec (.orderedComplete (BitVec.ofNat 16 r.val) 135) s) (fun v => v.imageDone = true ∧ v.sram = u.sram ∧
          v.keeper = u.keeper)) ∧
      (u.imageDone = true → u.keeper.started = false → j.st = .loading →
        ∃ t, exec (.keeperStart r) s = .next t ∧ t.hbm = s.hbm ∧
          (tileOf t r.val) = { u with keeper := { u.keeper with
            started := true, station := false, pc := BitVec.ofNat 64 u.entry, issueAt := s.cycle } } ∧
          (∀ q, q ≠ r.val → tileOf t q = tileOf s q) ∧
          ((∀ p ∈ j.placed, p.rank = r.val ∨ (tileOf s p.rank).keeper.started = true) →
            liveJob t j.id = some { j with st := .running }))) ∧
    (∀ p c : BitVec 16, liveJobs s = [j] → j.st = .running → c.toNat ∈ childrenOf j p.toNat → c.toNat ∉ j.sent →
      wordsIn j c.toNat = true →
      ∃ t w, exec (.doneWord p c) s = .next t ∧
        (let vs := wordsAt j c.toNat
         (∀ v ∈ vs, fld v 48 16 ≤ fld w 48 16) ∧ (vs ≠ [] → ∃ v ∈ vs, fld v 48 16 = fld w 48 16) ∧
         fld w 32 16 = Nat.min (sumN (vs.map (fun v => fld v 32 16))) 0xFFFF ∧
         ∀ b, b < 32 → bit w b = vs.any (fun v => bit v b)) ∧
        (let k := { j with words := j.words ++ [(p.toNat, c.toNat, w)], sent := j.sent ++ [c.toNat] }
         (p ≠ 0x800 → liveJob t j.id = some k ∧ t.tiles = s.tiles) ∧
         (p = 0x800 → wordsIn k 0x800 = true → liveJob t j.id = none ∧
           ∃ k', t.ls.jobs[i] = some k' ∧ k'.st = .ended ∧ k'.id = j.id ∧ k'.allot = [] ∧
             k'.result = some (combineWords (wordsAt k 0x800)))))

/-! ## Events: management -/

/-- R443, R444, R446, R447, R449, R450, R456, R458, R459, R461, R462, R467: each request of a host on the management list is served
in its turn and answered with its status; one of another host is not served. That a row carries the operands, and a reason of 0 where the
spec names none, are the model's reading (log entries 74 and 88); so are the restore that enters the station handler (76), what
KILL leaves (78), when DWRITE is allowed (79) and that DRESUME is refused while a die is hot (82). -/
def Obligations.ManagementRequests : Prop :=
  ∀ (s : State) (host : W32) (tag : BitVec 24) (id : BitVec 16),
    let serves (op : MgmtOp) (i : Instr) (P : State → Prop) : Prop := ServedFor s ⟨host, tag, id, op⟩ (exec i s) P
    let answers (t : State) (code reason : Nat) (bs : List Byte) : Prop := SameButSends s t ∧ Replies s t host tag code reason bs
    let ok (t : State) : Prop := Replies s t host tag 0 0 []
    (∀ b, let i := Instr.load host tag id b
      (loadReason s id b ≠ 0 → serves (.load b) i (fun t => answers t 15 (loadReason s id b) [])) ∧
      (loadReason s id b = 0 → blockers s id (partClusters (rectsOf b)) = [] → serves (.load b) i (fun t =>
        LightshipSends s t host tag 0xFFE (leBytes 8 0) ∧ t.hbm = s.hbm ∧
        ∃ slot : Fin 4, ∃ j, t.ls.jobs[slot] = some j ∧ OtherJobs s t slot ∧ j.id = id ∧ j.st = .loading ∧ j.host = host ∧
          j.tag = tag ∧ j.gen = 0 ∧ j.rects = rectsOf b ∧ j.staged = j.cur ∧ j.words = [] ∧
          (∀ r ∈ childrenOf j 0x800, ∃ g, LightshipSends s t (unitRank s r) g 0xFFC (tileOf t r).image) ∧
          ∀ p ∈ j.placed, (tileOf t p.rank).keeper.started = false ∧ jobOf (tileOf t p.rank) = id ∧
            (tileOf t p.rank).ctrl.rank = (unitRank s p.rank).zeroExtend 64))) ∧
    (∀ j, liveJob s id = some j →
      (∀ sb, j.st = .running → j.toAck = [] → roomToPark s j = true → room s (partSize j * 1024) = some sb →
        serves .preempt (.preempt host tag id) (fun t => ok t ∧ t.hbm = s.hbm ∧ ∀ r ∈ jobTiles s id,
          bit (tileOf t r).ctrl.events 38 = true ∧ fld (tileOf t r).ctrl.lscmd 0 4 = 1 ∧
          (tileOf t r).sram = (tileOf s r).sram ∧ (tileOf t r).keeper.pc = (tileOf s r).keeper.pc)) ∧
      (j.st = .parked → j.toAck = [] → blockers s id (partClusters j.rects) = [] →
        serves .resume (.resume host tag id) (fun t => ok t ∧ t.hbm = s.hbm ∧ ∀ r ∈ jobTiles s id,
          fld (tileOf t r).ctrl.lscmd 0 4 = 2 ∧ (tileOf t r).keeper.station = true ∧ (tileOf t r).keeper.started = true ∧
          (tileOf t r).sram = (tileOf s r).sram)) ∧
      (∀ unit r, unit = 0xFFFF ∨ (unit.toNat = r ∧ (tileOf s r).duplex ≠ .follower) → r ∈ jobTiles s id →
        (serves (.dhalt unit) (.dhaltRequest host tag id unit) (fun t => ok t ∧ (tileOf t r).keeper.debugHalt = true ∧ t.hbm = s.hbm ∧
          (tileOf t r).sram = (tileOf s r).sram ∧
          ((tileOf s r).keeper.debugHalt = false → bit (tileOf t r).ctrl.events 39 = true))) ∧
        (s.ls.hot = [] → serves (.dresume unit) (.dresume host tag id unit) (fun t => ok t ∧ (tileOf t r).keeper.debugHalt = false ∧
          t.hbm = s.hbm ∧ (tileOf t r).sram = (tileOf s r).sram)) ∧
        (s.ls.hot ≠ [] → serves (.dresume unit) (.dresume host tag id unit) (fun t => answers t 15 0 []))) ∧
      (∀ i : Fin 4, liveJobs s = [j] → s.ls.jobs[i] = some j → serves .kill (.kill host tag id) (fun t => liveJob t id = none ∧
        t.hbm = s.hbm ∧ (∃ k, t.ls.jobs[i] = some k ∧ k.id = id ∧ k.st = .ended ∧ k.result.isSome = true ∧ k.allot = []) ∧
        (∀ p ∈ j.placed, (j.placed.map (fun p => p.rank)).Nodup → (∀ q ∈ j.placed, q.duplex = false) →
          jobOf (tileOf s p.rank) = id → (tileOf t p.rank).keeper.started = false ∧ (tileOf t p.rank).lampsStopped = true ∧
          (tileOf t p.rank).sram = (tileOf s p.rank).sram)))) ∧
    (liveJob s id = none → ∀ p ∈ [(MgmtOp.preempt, Instr.preempt host tag id), (.resume, .resume host tag id),
        (.kill, .kill host tag id)], serves p.1 p.2 (fun t => answers t 15 0 [])) ∧
    (∀ j, jobById s id = some j → serves .status (.status host tag id) (fun t => ∃ a b, answers t 0 0
      (leBytes 8 a ++ leBytes 8 b ++ leBytes 8 j.placed.length ++ leBytes 8 s.ls.duty) ∧
      a % 16 = (match j.st with | .loading => 0 | .running => 1 | .parked => 2 | .ended => 3) ∧
      (j.prio < 4 → a / 256 % 16 = j.prio ∧ a / 65536 = ofBool j.atPhase) ∧ ∀ w, j.result = some w → b = w.toNat)) ∧
    (∀ r k : Nat, r < 1024 → (tileOf s r).duplex = .solo → k < 0x40000 →
      let addr : W64 := BitVec.ofNat 64 (k * 2 ^ 24 + r)
      serves (.dread addr 1) (.dread host tag id addr 1) (fun t => answers t 0 0 (Mem.readN (tileOf s r).sram (8 * k) 8)) ∧
      (∀ v, (tileOf s r).keeper.debugHalt = true → serves (.dwrite addr [v]) (.dwrite host tag id addr [v]) (fun t => ok t ∧
        t.tiles = (setTile s r { tileOf s r with sram := Mem.store (tileOf s r).sram (8 * k) 8 v.toNat }).tiles ∧
        t.hbm = s.hbm)) ∧
      (∀ v, (tileOf s r).keeper.debugHalt = false → (tileOf s r).keeper.halted = false → (tileOf s r).keeper.started = true →
        liveJobs s = [] → serves (.dwrite addr [v]) (.dwrite host tag id addr [v]) (fun t => answers t 15 0 []))) ∧
    (∀ n : Nat, n < 1024 →
      let u := MapUnit.tile n
      serves (.tilemap (.read u)) (.tilemap host tag id (.read u)) (fun t => answers t 0 0
        (leBytes 8 (match SMap.find s.ls.tileMap n with | some why => 1 + why * 16 | none => 0))) ∧
      serves (.tilemap (.set [u])) (.tilemap host tag id (.set [u])) (fun t => ok t ∧ t.tiles = s.tiles ∧ t.ls.tileMap = SMap.insert s.ls.tileMap n 4) ∧
      serves (.tilemap (.clear [u])) (.tilemap host tag id (.clear [u])) (fun t => ok t ∧ t.tiles = s.tiles ∧
        t.ls.tileMap = SMap.erase s.ls.tileMap n)) ∧
    (∀ d : BitVec 8, d.toNat < 4 → s.ls.dies[d.toNat]? = some .online →
      (liveJobs s = [] → s.ls.leaving = [] → serves (.offline d) (.offline host tag id d) (fun t => ok t ∧
        t.tiles = s.tiles ∧ t.hbm = s.hbm ∧ t.ls.dies = vset s.ls.dies d.toNat .offline)) ∧
      ((∀ n, n < 256 → SMap.find s.ls.tileMap (4096 + d.toNat * 256 + n) = none) →
        serves (.online d) (.online host tag id d) (fun t => ok t ∧ t.tiles = s.tiles ∧ t.hbm = s.hbm ∧
          t.ls.dies = vset s.ls.dies d.toNat .online)))

/-! ## Events: failures, power, ports, board test -/

/-- R399, R414, R460 to R463, R466, R467, R487, R490: a failed router stops, its tile fails, the jobs with a tile on its die halt
and the rest of them go on (log entry 128), and its die drains and goes OFFLINE once no job is there; so does a die that faults; power
samples are kept for 1 ms and the duty follows their average; heat lowers it, or halts every tile and is told to the hosts (log entry
112); package reset leaves the reset state but for what is kept (log entry 84: what is kept is the model's reading). -/
def Obligations.FailuresAndPower : Prop :=
  ∀ (s : State) (r : TileId) (d : Fin 4),
    (s.ls.deferred = [] → (tileOf s r.val).duplex ≠ .follower →
      let die := r.val / 256
      let marked (t : State) : Prop := SMap.find t.ls.tileMap (4096 + r.val) = some 1 ∧ SMap.find t.ls.tileMap r.val = some 1 ∧
        t.ls.dies = (if vget s.ls.dies die .online = .online then vset s.ls.dies die .drain else s.ls.dies) ∧ t.hbm = s.hbm ∧
        (routerOf t r.val).stopped = true ∧ (tileOf t r.val).keeper.debugHalt = true ∧
        (tileOf t r.val).sram = (tileOf s r.val).sram
      (liveJobs s = [] → ∃ t, exec (.routerFailure r) s = .next t ∧ marked t ∧ (∀ q, q ≠ r.val → tileOf t q = tileOf s q) ∧
        t.ls.deferred = [.release [], .router r]) ∧
      (∀ j p, liveJobs s = [j] → s.servers = [] → j.st ≠ .parked → p ∈ j.placed → p.rank / 256 = die →
        (∀ x ∈ jobTiles s j.id, slotList s x = [] ∧ (tileOf s x).msg.hdrs = []) →
        ∃ t rest, exec (.routerFailure r) s = .next t ∧ marked t ∧ t.ls.deferred = [.release rest, .router r] ∧
          (∀ x ∈ jobTiles s j.id, (tileOf t x).keeper.debugHalt = true ∧ (tileOf t x).sram = (tileOf s x).sram) ∧
          ∀ x, x ∈ rest ↔ x ∈ jobTiles s j.id ∧ x ≠ r.val ∧ (tileOf s x).keeper.debugHalt = false)) ∧
    (s.ls.deferred = [.router r] → liveJobs s = [] → s.ls.leaving = [] → vget s.ls.dies (r.val / 256) .online ≠ .offline →
      exec (.routerFailure r) s = .next { s with ls := { s.ls with
        deferred := [], dies := vset s.ls.dies (r.val / 256) .offline } }) ∧
    (∀ rs rest xs, s.agenda = .serve :: rest → s.ls.podMsgs = [] → s.ls.deferred = .release rs :: xs →
      ∃ t, step s = .next t ∧ t.ls.deferred = xs ∧ t.hbm = s.hbm ∧ (∀ x ∈ rs, (tileOf t x).keeper.debugHalt = false ∧
        (tileOf t x).sram = (tileOf s x).sram) ∧ ∀ x, x ∉ rs → tileOf t x = tileOf s x) ∧
    (s.ls.deferred = [] → liveJobs s = [] → ∃ t, exec (.dieFault d) s = .next t ∧
      t = { s with ls := { s.ls with dies := vset s.ls.dies d.val .offline } }) ∧
    (∀ j p (k : Nat), s.ls.deferred = [] → liveJobs s = [j] → s.servers = [] → j.placed = [p] → p.rank / 256 = d.val → j.left = [] →
      j.words = [] → j.restore = false → (∀ n, j.touches d.val n = false) → touches d.val (saveEntry j) = false → s.ls.jobs[k]? = some (some j) →
      ∃ (t : State) (k' : Job), exec (.dieFault d) s = .next t ∧ (tileOf t p.rank).keeper.debugHalt = true ∧ t.hbm = s.hbm ∧
        t.ls.jobs[k]? = some (some k') ∧ k'.left = [p.rank] ∧
        k'.words = [(p.rank, p.rank, BitVec.ofNat 64 (0x8005 * 2 ^ 48 + 2 ^ 32))] ∧
        t.ls.dies = vset s.ls.dies d.val .offline) ∧
    (∀ n, s.ls.samples.length ≤ 100 → ∃ xs, exec (.powerSample n) s = .next { s with ls := { s.ls with samples := xs } } ∧
      xs.length ≤ 100 ∧ xs.getLast? = some n ∧
      (s.ls.samples.length < 100 → xs = s.ls.samples ++ [n]) ∧ (s.ls.samples.length = 100 → xs = s.ls.samples.tail ++ [n])) ∧
    (s.ls.samples ≠ [] → 4 ≤ s.ls.duty → s.ls.duty ≤ 16 → ∃ t, exec .dutyStep s = .next t ∧ SameButSends
        { s with ls := { s.ls with duty := t.ls.duty } } t ∧
      (let total := sumN s.ls.samples
       let n := s.ls.samples.length
       (3600000 * n < total → t.ls.duty = if s.ls.duty = 4 then 4 else s.ls.duty - 1) ∧
       (total < 3400000 * n → t.ls.duty = if s.ls.duty = 16 then 16 else s.ls.duty + 1) ∧
       (3400000 * n ≤ total → total ≤ 3600000 * n → t.ls.duty = s.ls.duty))) ∧
    (∀ c, ∃ t, exec (.thermalLimit d c) s = .next t ∧ t.hbm = s.hbm ∧ t.ls.duty = (if 105 ≤ c then 4 else s.ls.duty) ∧
      (d.val ∈ t.ls.hot ↔ 95 ≤ c) ∧ (∀ e, e ≠ d.val → (e ∈ t.ls.hot ↔ e ∈ s.ls.hot)) ∧ (c < 115 → t.tiles = s.tiles) ∧
      (115 ≤ c → t.ls.reports = s.ls.reports ++ [(d.val, c)] ∧
        (∀ h ∈ s.ls.hosts, ∃ bs, LightshipSends s t h 0 0xFFE bs) ∧
        ∀ q, q < 1024 → (tileOf s q).duplex ≠ .follower → (tileOf t q).keeper.debugHalt = true ∧
          (tileOf t q).sram = (tileOf s q).sram)) ∧
    (∃ t, exec .packageReset s = .next t ∧ t.cycle = 0 ∧ t.tiles = [] ∧ t.lenses = [] ∧ t.servers = [] ∧ t.routers = [] ∧
      t.hbm = [] ∧ t.domains = [] ∧ t.ordered = true ∧ (∀ l, linkOf t l = Link.reset) ∧
      (∀ m, Machine.portOf t m = PortSt.reset) ∧ t.ls.jobs = Vector.replicate 4 none ∧ t.ls.duty = 16 ∧
      t.ls.tileMap = s.ls.tileMap ∧ t.ls.firmware = s.ls.firmware ∧ t.ls.fwVersion = s.ls.fwVersion ∧
      t.ls.stFirmware = s.ls.stFirmware ∧ t.ls.stVersion = s.ls.stVersion ∧ t.ls.certificate = s.ls.certificate ∧
      t.ls.certVersion = s.ls.certVersion)

/-- R465, R476, R477, R479, R480, R482, R484, R486 to R490: a port is configured in UNLOCKED, comes up LOCKED or in ERROR, runs, is
unlocked and loses its link, of which the pod hears (log entry 113); a frame with a good tag and counter is taken once and in the order of
an ORDERED context, and acknowledged (log entry 67), and another one is counted, the sixteenth in a row an ERROR (bad tags and old
counters count alike, and the peer is gone after UNLOCK: log entry 85); the first frame not acknowledged goes out again in its place
(log entry 67); keys are updated after 2^32 frames; an image with a valid signature and no lower version is stored (log entry 115); the
board-test port shifts (whole scans: log entry 6). -/
def Obligations.PortsAndBoardTest : Prop :=
  ∀ (s : State) (m : Fin 10),
    let p := Machine.portOf s m.val
    let becomes (i : Instr) (q : PortSt) : Prop := PortNext s m (exec i s) q
    let joined : Prop := p.peer ≠ 0xFFFF ∧ ∃ k, k < 10 ∧ k ≠ m.val ∧ (Machine.portOf s k).peer = p.peer ∧ (Machine.portOf s k).keys = true
    let leaves (i : Instr) (q : PortSt) : Prop := ∃ t, exec i s = .next t ∧ Machine.portOf t m.val = q ∧
      t = { s with ports := t.ports, ordered := t.ordered, pds := t.pds, ls := { s.ls with eng := t.ls.eng, msg := t.ls.msg } } ∧
      (p.st = .run → t.ordered = true ∧
        ∀ n ∈ podNodes s, LightshipSends s t (n ++ (0x800 : BitVec 16)) 0 0xFFD (leBytes 8 1)) ∧
      (p.st ≠ .run → t.ordered = s.ordered ∧ t.ls = s.ls) ∧
      (joined → t.pds = s.pds) ∧ (¬ joined → t.pds = s.pds.filter (fun x => x.1 / 16 != p.peer.toNat)) ∧
      ∀ k, k ≠ m.val → Machine.portOf t k = Machine.portOf s k
    let down (q : PortSt) (x : LockState) : PortSt :=
      { q with st := x, keys := false, consec := 0, highest := 0, txCount := 0, keyAt := 0, owed := [] }
    let may (n : BitVec 16) : Prop := (m.val < 8 → n.toNat < 0x2000) ∧ (8 ≤ m.val → ∃ h ∈ s.ls.hosts, nodeOf h = n)
    (∀ c, (p.st = .unlocked → becomes (.portConfiguration m c) { p with config := some c }) ∧
      (p.st ≠ .unlocked → becomes (.portConfiguration m c) p)) ∧
    (p.st = .unlocked → portWired s m.val = true →
      (∀ n, (∀ c, p.config = some c → c.peer = n) → may n → becomes (.spdmSession m (.established n))
        { p with st := .locked, peer := n, keys := true, highest := 0, txCount := 0, keyAt := 0, consec := 0 }) ∧
      (∀ n, ((∃ c, p.config = some c ∧ c.peer ≠ n) ∨ ¬ may n) →
        becomes (.spdmSession m (.established n)) { p with st := .error, reason := 1 }) ∧
      becomes (.spdmSession m .failed) { p with st := .error, reason := 1 } ∧
      becomes (.spdmSession m .refusedOption) { p with st := .error, reason := 2 }) ∧
    (p.st = .locked → becomes (.portRun m) { p with st := .run }) ∧
    (p.st ≠ .unlocked → p.wire = [] → leaves (.portUnlock m) { down p .unlocked with peer := 0xFFFF }) ∧
    (p.st = .run → p.wire = [] → leaves (.portLinkLoss m) (down p .error)) ∧
    exec .fabricAdaptive s = .next { s with ordered := false } ∧
    (p.keys = true → p.keyAt + 2 ^ 32 ≤ p.txCount → becomes (.keyUpdate m) { p with keyAt := p.txCount }) ∧
    (∀ f, (p.st = .unlocked ∨ p.st = .error → becomes (.frame m f) p) ∧
      (p.st = .run → f.tagOk = true → p.highest ≤ f.counter →
        let good := { p with highest := f.counter + 1, consec := 0 }
        (f.pkt = none → ∃ t, exec (.frame m f) s = .next t ∧ t = { s with ports := t.ports } ∧ ∀ k : Fin 10,
          let x := if k = m then good else Machine.portOf s k.val
          Machine.portOf t k.val = if x.peer = p.peer then { x with wire := x.wire.filter (fun g => match g.pkt with
              | some q => !f.acks.contains (pdsLane q, g.psn)
              | none => true) } else x) ∧
        (∀ pk, f.pkt = some pk → f.acks = [] →
          let c := pdsOf s p.peer (pdsLane pk)
          let owing := { good with owed := p.owed ++ [(pdsLane pk, f.psn)] }
          (c.has f.psn = true → becomes (.frame m f) owing) ∧
          (c.has f.psn = false → pk.ordered = true → f.psn ≠ c.next → becomes (.frame m f) good) ∧
          (c.has f.psn = false → (pk.ordered = true → f.psn = c.next) → pk.tree = [] → nodeOf pk.dst = s.ls.node →
            ∃ t, exec (.frame m f) s = .next t ∧ t = { s with ports := t.ports, routers := t.routers, pds := t.pds } ∧
              Machine.portOf t m.val = owing ∧ (∀ k, k ≠ m.val → Machine.portOf t k = Machine.portOf s k) ∧
              (∀ n, (pdsOf t p.peer (pdsLane pk)).has n = (c.has n || n == f.psn)) ∧
              (let k := 2048 + portStack m.val
               let q := { pk with escape := false, via := none, unescaped := f.cls != 2 && !carriesData pk }
               let key := 4 + pktVc q
               routerOf t k = { routerOf s k with inject := (routerOf t k).inject, entered := (routerOf s k).entered + 1 } ∧
               SMap.getD (routerOf t k).inject key [] = SMap.getD (routerOf s k).inject key [] ++
                 cellsOf ((routerOf s k).entered * 4096 + k) q)))) ∧
      (p.st = .run → (f.tagOk = false ∨ f.counter < p.highest) →
        let q := { p with tagFail := Nat.min (p.tagFail + 1) 0xFFFF, consec := p.consec + 1 }
        (p.consec < 15 → becomes (.frame m f) q) ∧ (15 ≤ p.consec → p.wire = [] → leaves (.frame m f) (down q .error)))) ∧
    (∀ f rest, p.wire = f :: rest → p.st = .locked ∨ p.st = .run → becomes (.packetDeliveryResend m)
      { p with wire := { f with counter := p.txCount } :: rest, txCount := p.txCount + 1 }) ∧
    (∀ img, let l := s.ls
      let v := leAt img.bytes 0 8
      let body := img.bytes.drop 8
      let stored := match img.kind with
        | .lightship => l.fwVersion
        | .station => l.stVersion
        | .certificate => l.certVersion
      exec (.firmwareImage img) s = .next (
        if Config.ed448Valid img.signature (shake256 img.bytes) = true ∧ stored ≤ v then
          { s with ls := match img.kind with
            | .lightship => { l with fwVersion := v, firmware := body, hosts := (Config.managementList body).getD l.hosts }
            | .station => { l with stVersion := v, stFirmware := body }
            | .certificate => { l with certVersion := v, certificate := body } }
        else s)) ∧
    (∀ tdi, let n := Config.ballCount
      let shows (i : Instr) (x : Tap) : Prop := exec i s = .next { s with tap := x }
      (∃ b, shows (.bypass tdi)
        { s.tap with ir := .bypass, bypass := b, driven := [], tdo := (false :: tdi).take tdi.length }) ∧
      shows (.idcode tdi)
        { s.tap with ir := .idcode, driven := [], tdo := (upTo 32 (fun i => Config.idcode.getLsbD i) ++ tdi).take tdi.length } ∧
      (∃ out reg : List Bool, out.length = tdi.length ∧ reg.length = n ∧
        out ++ reg = upTo n (fun i => Config.ball i s.tap.captures) ++ tdi ∧
        shows (.samplePreload tdi)
          { s.tap with ir := .samplePreload, boundary := reg, driven := [], tdo := out, captures := s.tap.captures + 1 } ∧
        shows (.extest tdi)
          { s.tap with ir := .extest, boundary := reg, driven := reg, tdo := out, captures := s.tap.captures + 1 }))

/-! ## Steps, encodings, the whole machine -/

/-- R198, R202, R218, R222, R225, R226, R230, R240: with an entry of the agenda that names a keeper at an instruction
boundary, a step is the instruction that its word decodes to, or the trap of an illegal word or of a fetch out of bounds, or
its waiting instruction tried again; an entry that lets it choose runs that instruction, or puts off to the end of the clk one
whose effect on other units comes there (R499), which runs then (an LSTART starts the lamps that stand as at the start of the clk, an LGROUP grants
no earlier request, a write of MATCHLOG or CHECKMODE goes by what the register held there: log entry 2); an entry that names a whole step
runs it; a clk advances CYCLE
by one. The agenda and the phases of a clk are the model's (log entry 2). -/
def Obligations.StepRunsTheDecodedInstruction : Prop :=
  (∀ (s : State) (r : TileId) (rest : List Sched), s.agenda = .keeper r :: rest →
    let t := { s with agenda := rest, focus := r }
    let k := (cur t).keeper
    let w : W32 := BitVec.ofNat 32 (Mem.load (cur t).sram k.pc.toNat 4)
    let inside := inBounds (cur t) k.station k.pc.toNat 4
    k.started = true → k.debugHalt = false → (cur t).mismatch = false → (cur t).duplex ≠ .follower →
      k.issueAt ≤ s.cycle → dueTrap (cur t) = none → k.halted = false → k.late = none →
      (∀ i, k.waiting = none → inside = true → decodeWord w = .ok i → mayIssue t i = true → step s = exec i t) ∧
      (∀ e, k.waiting = none → inside = true → decodeWord w = .error e → mayIssue t (.illegal w) = true →
        step s = exec (.illegal w) t) ∧
      (k.waiting = none → inside = false → mayIssue t .fetchSramBound = true → step s = exec .fetchSramBound t) ∧
      (k.waiting.isSome = true → step s = exec .keeperWaitComplete t)) ∧
  (∀ (s : State) (r : TileId) (rest : List Sched) (i : Instr), s.agenda = .choose r :: rest →
    let t := { s with agenda := rest, focus := r }
    let k := (cur t).keeper
    k.started = true → k.debugHalt = false → (cur t).mismatch = false → (cur t).duplex ≠ .follower →
      k.issueAt ≤ s.cycle → dueTrap (cur t) = none → k.halted = false → k.waiting = none →
      inBounds (cur t) k.station k.pc.toNat 4 = true →
      decodeWord (BitVec.ofNat 32 (Mem.load (cur t).sram k.pc.toNat 4)) = .ok i → regsReady t i = true →
      step s = if putsOff t i && takesEffect i t then .next (setLate (some i) t) else exec i t) ∧
  (∀ (s : State) (r : TileId) (rest : List Sched) (i : Instr), s.agenda = .keeper r :: rest →
    let t := { s with agenda := rest, focus := r }
    (cur t).keeper.late = some i → mayIssue (setLate none t) i = true →
      ((∀ a b, i ≠ .lstart a b ∧ i ≠ .lgroup a b) → (∀ r n, i ≠ .crw r n ∧ i ≠ .crs r n ∧ i ≠ .crc r n) →
        step s = exec i (setLate none t)) ∧
      (∀ r n, i = .crw r n ∨ i = .crs r n ∨ i = .crc r n → step s = lateWrite i (setLate none t)) ∧
      (∀ a b, i = .lstart a b ∨ i = .lgroup a b → step s = lateRun i (setLate none t))) ∧
  (∀ (s : State) (i : Instr) (rest : List Sched), s.agenda = .event i :: rest → step s = exec i { s with agenda := rest }) ∧
  (∀ (s : State) (rest : List Sched), s.agenda = .clk 1 :: rest → urgentMove { s with agenda := rest } = none →
    s.cycle % 1500000 ≠ 1499999 → ∃ t, step s = .next t ∧ t.cycle = s.cycle + 1 ∧ t.agenda = rest)

/-- R225, R227, R228: words of the spec's own encodings decode to the instructions they stand for. -/
def Obligations.SpecWordsDecode : Prop :=
  ∀ p ∈ [((0x04100030 : W32), Instr.addi 1 0 48), (0x28408000, .lw 4 1 0), (0x02319000, .add 3 3 4),
      (0x42207FFC, .bne 2 0 0x7FFC), (0x34308000, .sw 3 1 0), (0x62018007, .done 3), (0x60100000, .crr 1 0),
      (0x60500501, .crw 5 5), (0xC60C0000, .recv 1 16 0 0), (0xC0050000, .send 0 20 0 0), (0x76320000, .bar 3 4 0),
      (0xA0021400, .flash 4 5), (0x744A0203, .scan 9 8 2 0 3), (0x94320001, .turnW 3 4), (0x9A600000, .wincommit 6),
      (0xE2120100, .lmms 2 8 1 0), (0xF2320000, .accAlloc 3 4)],
    decodeWord p.1 = .ok p.2 ∧ encode p.2 = some p.1

/-- R228: an unassigned opcode is no instruction, and the keeper that fetches it traps ILLEGAL. -/
def Obligations.UnassignedOpcodesAreIllegal : Prop :=
  ∀ (s : State) (w : W32),
    let op := (w.extractLsb' 25 7).toNat
    (w = 0 → op = 0) ∧
    (op = 0 ∨ (0x0C ≤ op ∧ op ≤ 0x0F) ∨ (0x1D ≤ op ∧ op ≤ 0x1F) ∨ (0x29 ≤ op ∧ op ≤ 0x2F) ∨ (0x32 ≤ op ∧ op ≤ 0x37) ∨
      (0x3D ≤ op ∧ op ≤ 0x3F) ∨ op = 0x4F ∨ (0x59 ≤ op ∧ op ≤ 0x5F) ∨ (0x6C ≤ op ∧ op ≤ 0x6F) ∨ (0x7B ≤ op ∧ op ≤ 0x7F) →
      decodeWord w = .error .unassignedOp ∧
      (inBounds (cur s) (cur s).keeper.station (cur s).keeper.pc.toNat 4 = true → fetchWord (cur s) = w →
        fetched s = .illegal w) ∧
      TrapsSync s (exec (.illegal w) s) 1 (w.zeroExtend 64) 31 0)

/-- R106, R107, R117 to R124, R225 to R228: decoding inverts encoding, and encoding inverts decoding, for every keeper
instruction at every operand value, for every trigger port of a lamp operation, and for every slot of a bundle. -/
def Obligations.DecodeInvertsEncode : Prop :=
  (∀ (i : Instr) (w : W32) (rest : List Byte), encode i = some w →
    decodeWord w = .ok i ∧ decodeBytes (wordBytes w ++ rest) = .ok (i, rest) ∧ decodeTableWord 32 w.toNat = some i) ∧
  (∀ (i : Instr) (w : W32), decodeWord w = .ok i → encode i = some w) ∧
  (∀ (i : Instr) (d : BitVec 10), portOf i = some d ↔
    (if d.toNat < 0x200 then sendOp d.toNat else decodeTrigger d) = some i) ∧
  (∀ x : Slot, Slot.ofBits x.bits = x) ∧
  (∀ xs : List Slot, xs.length = 8 → bundleSlots (packBundle xs) = xs)

/-- R422: every step keeps the memory of the HBM stacks in canonical form (log entry 1: the form is the model's). -/
def Obligations.StepsKeepHbmCanonical : Prop :=
  ∀ (s t : State), s.HbmWf → step s = .next t → t.HbmWf

/-- R199, R203: every step keeps the SRAM of every tile in canonical form (log entry 1: the form is the model's). -/
def Obligations.StepsKeepSramCanonical : Prop :=
  ∀ (s t : State), s.SramWf → step s = .next t → t.SramWf

/-- R199, R201, R202, R414, R450, R487, R489: what package reset leaves; the memories are in canonical form (log entry 1). -/
def Obligations.ResetValues : Prop :=
  State.reset.cycle = 0 ∧ State.reset.HbmWf ∧ State.reset.SramWf ∧
  (∀ l, (linkOf State.reset l).sector = 8 ∧ (linkOf State.reset l).st = .steady ∧ (linkOf State.reset l).turns = 0) ∧
  (∀ m, (Machine.portOf State.reset m).st = .unlocked ∧ (Machine.portOf State.reset m).peer = 0xFFFF) ∧
  State.reset.ordered = true ∧ (∀ i : Fin 4, State.reset.ls.jobs[i] = none) ∧
  (∀ r, let t := tileOf State.reset r
    t.keeper.started = false ∧ t.ctrl.evmask = 0x000000C000000000 ∧ t.ctrl.trapvec = 0 ∧ t.ctrl.eagermax = 8 ∧
    t.ctrl.sramlim = 0x1F0000 ∧ t.ctrl.uxpool = 0x00000040001B0000 ∧ t.ctrl.fmta = 5 ∧ t.ctrl.fmtb = 5 ∧
    ∀ x, t.keeper.get x = 0)
end

