-- ==== Sys2Proof/Laws/Memory.lean ====
section
/-! SUPPORT. Sparse maps and byte memories: read after write, and that every operation keeps the canonical form. -/

namespace Sys2Proof.Machine

/-! ## Sparse maps -/

@[simp] theorem SMap.find_insert_self {α : Type} (m : SMap α) (k : Nat) (v : α) :
    SMap.find (SMap.insert m k v) k = some v := by
  induction m with
  | nil => simp [SMap.insert, SMap.find]
  | cons p rest ih =>
    obtain ⟨k', v'⟩ := p
    simp only [SMap.insert]
    split
    · simp [SMap.find]
    · split
      · simp [SMap.find]
      · simp [SMap.find, *]

theorem SMap.find_insert_ne {α : Type} (m : SMap α) (k j : Nat) (v : α) (h : j ≠ k) :
    SMap.find (SMap.insert m k v) j = SMap.find m j := by
  induction m with
  | nil => simp [SMap.insert, SMap.find, h]
  | cons p rest ih =>
    obtain ⟨k', v'⟩ := p
    simp only [SMap.insert]
    split
    · rename_i e; subst e; simp [SMap.find, h]
    · split
      · simp [SMap.find, h]
      · simp [SMap.find, ih]

@[simp] theorem SMap.find_erase_self {α : Type} (m : SMap α) (k : Nat) : SMap.find (SMap.erase m k) k = none := by
  induction m with
  | nil => rfl
  | cons p rest ih =>
    obtain ⟨k', v'⟩ := p
    simp only [SMap.erase]
    split
    · exact ih
    · simp [SMap.find, *]

theorem SMap.find_erase_ne {α : Type} (m : SMap α) (k j : Nat) (h : j ≠ k) :
    SMap.find (SMap.erase m k) j = SMap.find m j := by
  induction m with
  | nil => rfl
  | cons p rest ih =>
    obtain ⟨k', v'⟩ := p
    simp only [SMap.erase]
    split
    · rename_i e; subst e; simp [SMap.find, h, ih]
    · simp [SMap.find, ih]

@[simp] theorem SMap.getD_insert_self {α : Type} (m : SMap α) (k : Nat) (v d : α) :
    SMap.getD (SMap.insert m k v) k d = v := by simp [SMap.getD]

theorem SMap.getD_insert_ne {α : Type} (m : SMap α) (k j : Nat) (v d : α) (h : j ≠ k) :
    SMap.getD (SMap.insert m k v) j d = SMap.getD m j d := by simp [SMap.getD, SMap.find_insert_ne m k j v h]

/-! ## Bytes -/

@[simp] theorem Mem.read_write_self (m : Mem) (a : Nat) (b : Byte) : Mem.read (Mem.write m a b) a = b := by
  simp only [Mem.read, Mem.write, SMap.getD]
  split <;> simp_all

theorem Mem.read_write_ne (m : Mem) (a c : Nat) (b : Byte) (h : c ≠ a) :
    Mem.read (Mem.write m a b) c = Mem.read m c := by
  simp only [Mem.read, Mem.write, SMap.getD]
  split
  · rw [SMap.find_erase_ne m a c h]
  · rw [SMap.find_insert_ne m a c b h]

@[simp] theorem leBytes_length (n x : Nat) : (leBytes n x).length = n := by
  induction n generalizing x with
  | zero => rfl
  | succ n ih => simp [leBytes, ih]

/-- What a byte reads as after a write. -/
theorem Mem.read_write (m : Mem) (a c : Nat) (b : Byte) : Mem.read (Mem.write m a b) c = if c = a then b else Mem.read m c := by
  split
  · rename_i h
    rw [h, Mem.read_write_self]
  · rename_i h
    exact Mem.read_write_ne m a c b h

/-- What a byte reads as after writes depends on that byte alone. -/
theorem Mem.read_writeN_congr (bs : List Byte) (m m' : Mem) (a c : Nat) (h : Mem.read m c = Mem.read m' c) :
    Mem.read (Mem.writeN m a bs) c = Mem.read (Mem.writeN m' a bs) c := by
  induction bs generalizing m m' a with
  | nil => exact h
  | cons b bs ih => exact ih _ _ _ (by rw [Mem.read_write, Mem.read_write, h])

theorem Mem.read_writeN_out (bs : List Byte) (m : Mem) (a c : Nat) (h : c < a ∨ a + bs.length ≤ c) :
    Mem.read (Mem.writeN m a bs) c = Mem.read m c := by
  induction bs generalizing m a with
  | nil => rfl
  | cons b bs ih =>
    simp only [List.length_cons] at h
    rw [Mem.writeN, ih _ _ (by omega), Mem.read_write_ne _ _ _ _ (by omega)]

/-! ## The canonical form -/

theorem Mem.wfFrom_le {lo lo' : Nat} {m : Mem} (h : Mem.wfFrom lo m = true) (hl : lo' ≤ lo) : Mem.wfFrom lo' m = true := by
  cases m with
  | nil => rfl
  | cons p rest =>
    obtain ⟨k, v⟩ := p
    simp only [Mem.wfFrom, Bool.and_eq_true, decide_eq_true_eq] at h ⊢
    exact ⟨⟨by omega, h.1.2⟩, h.2⟩

theorem Mem.erase_wfFrom (m : Mem) (lo a : Nat) (h : Mem.wfFrom lo m = true) : Mem.wfFrom lo (SMap.erase m a) = true := by
  induction m generalizing lo with
  | nil => rfl
  | cons p rest ih =>
    obtain ⟨k, v⟩ := p
    simp only [Mem.wfFrom, Bool.and_eq_true, decide_eq_true_eq] at h
    simp only [SMap.erase]
    split
    · exact Mem.wfFrom_le (ih _ h.2) (by omega)
    · simp only [Mem.wfFrom, Bool.and_eq_true, decide_eq_true_eq]
      exact ⟨h.1, ih _ h.2⟩

theorem Mem.insert_wfFrom (m : Mem) (lo a : Nat) (b : Byte) (hb : b ≠ 0) (hl : lo ≤ a) (h : Mem.wfFrom lo m = true) :
    Mem.wfFrom lo (SMap.insert m a b) = true := by
  induction m generalizing lo with
  | nil => simp only [SMap.insert, Mem.wfFrom, Bool.and_eq_true, decide_eq_true_eq, bne_iff_ne, ne_eq]; exact ⟨⟨hl, hb⟩, trivial⟩
  | cons p rest ih =>
    obtain ⟨k, v⟩ := p
    simp only [Mem.wfFrom, Bool.and_eq_true, decide_eq_true_eq, bne_iff_ne, ne_eq] at h
    simp only [SMap.insert]
    split
    · rename_i e; subst e
      simp only [Mem.wfFrom, Bool.and_eq_true, decide_eq_true_eq, bne_iff_ne, ne_eq]
      exact ⟨⟨hl, hb⟩, h.2⟩
    · split
      · rename_i e
        simp only [Mem.wfFrom, Bool.and_eq_true, decide_eq_true_eq, bne_iff_ne, ne_eq]
        exact ⟨⟨hl, hb⟩, ⟨by omega, h.1.2⟩, h.2⟩
      · simp only [Mem.wfFrom, Bool.and_eq_true, decide_eq_true_eq, bne_iff_ne, ne_eq]
        exact ⟨h.1, ih _ (by omega) h.2⟩

/-- A stored byte keeps the canonical form. -/
theorem Mem.write_wf (m : Mem) (a : Nat) (b : Byte) (h : Mem.wf m = true) : Mem.wf (Mem.write m a b) = true := by
  simp only [Mem.write]
  split
  · exact Mem.erase_wfFrom m 0 a h
  · exact Mem.insert_wfFrom m 0 a b ‹_› (Nat.zero_le a) h

/-- Stored bytes keep the canonical form. -/
theorem Mem.writeN_wf (bs : List Byte) (m : Mem) (a : Nat) (h : Mem.wf m = true) : Mem.wf (Mem.writeN m a bs) = true := by
  induction bs generalizing m a with
  | nil => exact h
  | cons b bs ih => exact ih _ _ (Mem.write_wf m a b h)

/-- A stored number keeps the canonical form. -/
theorem Mem.store_wf (m : Mem) (a n v : Nat) (h : Mem.wf m = true) : Mem.wf (Mem.store m a n v) = true :=
  Mem.writeN_wf _ m a h

/-- A stored granule keeps the canonical form. -/
theorem Mem.setGranule_wf (m : Mem) (a : Nat) (v : V128) (h : Mem.wf m = true) : Mem.wf (Mem.setGranule m a v) = true :=
  Mem.store_wf m a 16 _ h

/-- Two memories in canonical form that read alike everywhere are equal. -/
theorem Mem.eq_of_read {m m' : Mem} (h : Mem.wf m = true) (h' : Mem.wf m' = true)
    (e : ∀ a, Mem.read m a = Mem.read m' a) : m = m' := by
  suffices H : ∀ lo, Mem.wfFrom lo m = true → Mem.wfFrom lo m' = true → m = m' from H 0 h h'
  have below : ∀ (x : Mem) (lo a : Nat), Mem.wfFrom lo x = true → a < lo → Mem.read x a = 0 := by
    intro x
    induction x with
    | nil => intros; rfl
    | cons p rest ih =>
      obtain ⟨k, v⟩ := p
      intro lo a hx ha
      simp only [Mem.wfFrom, Bool.and_eq_true, decide_eq_true_eq] at hx
      have hne : a ≠ k := by omega
      have := ih (k + 1) a hx.2 (by omega)
      simp only [Mem.read, SMap.getD, SMap.find, hne, if_false] at this ⊢
      exact this
  have cons_wf : ∀ {lo k : Nat} {b : Byte} {x : Mem}, lo < k → b ≠ 0 → Mem.wfFrom (k + 1) x = true →
      Mem.wfFrom (lo + 1) ((k, b) :: x) = true := by
    intro lo k b x hk hb hx
    simp only [Mem.wfFrom, Bool.and_eq_true, decide_eq_true_eq, bne_iff_ne, ne_eq]
    exact ⟨⟨hk, hb⟩, hx⟩
  clear h h'
  induction m generalizing m' with
  | nil =>
    intro lo _ h'
    cases m' with
    | nil => rfl
    | cons p rest =>
      obtain ⟨k, v⟩ := p
      simp only [Mem.wfFrom, Bool.and_eq_true, decide_eq_true_eq, bne_iff_ne, ne_eq] at h'
      have := e k
      simp [Mem.read, SMap.getD, SMap.find] at this
      exact absurd this.symm h'.1.2
  | cons p rest ih =>
    obtain ⟨k, v⟩ := p
    intro lo h h'
    simp only [Mem.wfFrom, Bool.and_eq_true, decide_eq_true_eq, bne_iff_ne, ne_eq] at h
    cases m' with
    | nil =>
      have := e k
      simp [Mem.read, SMap.getD, SMap.find] at this
      exact absurd this h.1.2
    | cons p' rest' =>
      obtain ⟨k', v'⟩ := p'
      simp only [Mem.wfFrom, Bool.and_eq_true, decide_eq_true_eq, bne_iff_ne, ne_eq] at h'
      have hk : k = k' := by
        rcases Nat.lt_trichotomy k k' with hlt | heq | hgt
        · have := e k
          rw [below ((k', v') :: rest') (k + 1) k (cons_wf hlt h'.1.2 h'.2) (by omega)] at this
          simp [Mem.read, SMap.getD, SMap.find] at this
          exact absurd this h.1.2
        · exact heq
        · have := e k'
          rw [below ((k, v) :: rest) (k' + 1) k' (cons_wf hgt h.1.2 h.2) (by omega)] at this
          simp [Mem.read, SMap.getD, SMap.find] at this
          exact absurd this.symm h'.1.2
      subst hk
      have hv : v = v' := by simpa [Mem.read, SMap.getD, SMap.find] using e k
      subst hv
      congr 1
      refine ih (fun a => ?_) (k + 1) h.2 h'.2
      by_cases ha : a = k
      · subst ha
        rw [below rest (a + 1) a h.2 (by omega), below rest' (a + 1) a h'.2 (by omega)]
      · simpa [Mem.read, SMap.getD, SMap.find, ha] using e a

end Sys2Proof.Machine
end

