-- ==== Sys2Proof/Laws/State.lean ====
section
/-! SUPPORT. The small lemmas of State: what each update of a part leaves as it was, and reading a part after an update. -/

namespace Sys2Proof.Machine

/-! ### setTile -/

@[simp] theorem setTile_cycle (s : State) (r : Nat) (t : Tile) : (setTile s r t).cycle = s.cycle := rfl
@[simp] theorem setTile_lenses (s : State) (r : Nat) (t : Tile) : (setTile s r t).lenses = s.lenses := rfl
@[simp] theorem setTile_servers (s : State) (r : Nat) (t : Tile) : (setTile s r t).servers = s.servers := rfl
@[simp] theorem setTile_routers (s : State) (r : Nat) (t : Tile) : (setTile s r t).routers = s.routers := rfl
@[simp] theorem setTile_links (s : State) (r : Nat) (t : Tile) : (setTile s r t).links = s.links := rfl
@[simp] theorem setTile_hbm (s : State) (r : Nat) (t : Tile) : (setTile s r t).hbm = s.hbm := rfl
@[simp] theorem setTile_domains (s : State) (r : Nat) (t : Tile) : (setTile s r t).domains = s.domains := rfl
@[simp] theorem setTile_ls (s : State) (r : Nat) (t : Tile) : (setTile s r t).ls = s.ls := rfl
@[simp] theorem setTile_ports (s : State) (r : Nat) (t : Tile) : (setTile s r t).ports = s.ports := rfl
@[simp] theorem setTile_ordered (s : State) (r : Nat) (t : Tile) : (setTile s r t).ordered = s.ordered := rfl
@[simp] theorem setTile_tap (s : State) (r : Nat) (t : Tile) : (setTile s r t).tap = s.tap := rfl
@[simp] theorem setTile_agenda (s : State) (r : Nat) (t : Tile) : (setTile s r t).agenda = s.agenda := rfl
@[simp] theorem setTile_phase (s : State) (r : Nat) (t : Tile) : (setTile s r t).phase = s.phase := rfl
@[simp] theorem setTile_focus (s : State) (r : Nat) (t : Tile) : (setTile s r t).focus = s.focus := rfl
@[simp] theorem setTile_bundle (s : State) (r : Nat) (t : Tile) : (setTile s r t).bundle = s.bundle := rfl
@[simp] theorem setTile_freeCtr (s : State) (r : Nat) (t : Tile) : (setTile s r t).freeCtr = s.freeCtr := rfl

/-! ### setLens -/

@[simp] theorem setLens_cycle (s : State) (c : Nat) (l : Lens) : (setLens s c l).cycle = s.cycle := rfl
@[simp] theorem setLens_tiles (s : State) (c : Nat) (l : Lens) : (setLens s c l).tiles = s.tiles := rfl
@[simp] theorem setLens_servers (s : State) (c : Nat) (l : Lens) : (setLens s c l).servers = s.servers := rfl
@[simp] theorem setLens_routers (s : State) (c : Nat) (l : Lens) : (setLens s c l).routers = s.routers := rfl
@[simp] theorem setLens_links (s : State) (c : Nat) (l : Lens) : (setLens s c l).links = s.links := rfl
@[simp] theorem setLens_hbm (s : State) (c : Nat) (l : Lens) : (setLens s c l).hbm = s.hbm := rfl
@[simp] theorem setLens_domains (s : State) (c : Nat) (l : Lens) : (setLens s c l).domains = s.domains := rfl
@[simp] theorem setLens_ls (s : State) (c : Nat) (l : Lens) : (setLens s c l).ls = s.ls := rfl
@[simp] theorem setLens_ports (s : State) (c : Nat) (l : Lens) : (setLens s c l).ports = s.ports := rfl
@[simp] theorem setLens_ordered (s : State) (c : Nat) (l : Lens) : (setLens s c l).ordered = s.ordered := rfl
@[simp] theorem setLens_tap (s : State) (c : Nat) (l : Lens) : (setLens s c l).tap = s.tap := rfl
@[simp] theorem setLens_agenda (s : State) (c : Nat) (l : Lens) : (setLens s c l).agenda = s.agenda := rfl
@[simp] theorem setLens_phase (s : State) (c : Nat) (l : Lens) : (setLens s c l).phase = s.phase := rfl
@[simp] theorem setLens_focus (s : State) (c : Nat) (l : Lens) : (setLens s c l).focus = s.focus := rfl
@[simp] theorem setLens_bundle (s : State) (c : Nat) (l : Lens) : (setLens s c l).bundle = s.bundle := rfl
@[simp] theorem setLens_freeCtr (s : State) (c : Nat) (l : Lens) : (setLens s c l).freeCtr = s.freeCtr := rfl

/-! ### setServer -/

@[simp] theorem setServer_cycle (s : State) (v : Nat) (x : Server) : (setServer s v x).cycle = s.cycle := rfl
@[simp] theorem setServer_tiles (s : State) (v : Nat) (x : Server) : (setServer s v x).tiles = s.tiles := rfl
@[simp] theorem setServer_lenses (s : State) (v : Nat) (x : Server) : (setServer s v x).lenses = s.lenses := rfl
@[simp] theorem setServer_routers (s : State) (v : Nat) (x : Server) : (setServer s v x).routers = s.routers := rfl
@[simp] theorem setServer_links (s : State) (v : Nat) (x : Server) : (setServer s v x).links = s.links := rfl
@[simp] theorem setServer_hbm (s : State) (v : Nat) (x : Server) : (setServer s v x).hbm = s.hbm := rfl
@[simp] theorem setServer_domains (s : State) (v : Nat) (x : Server) : (setServer s v x).domains = s.domains := rfl
@[simp] theorem setServer_ls (s : State) (v : Nat) (x : Server) : (setServer s v x).ls = s.ls := rfl
@[simp] theorem setServer_ports (s : State) (v : Nat) (x : Server) : (setServer s v x).ports = s.ports := rfl
@[simp] theorem setServer_ordered (s : State) (v : Nat) (x : Server) : (setServer s v x).ordered = s.ordered := rfl
@[simp] theorem setServer_tap (s : State) (v : Nat) (x : Server) : (setServer s v x).tap = s.tap := rfl
@[simp] theorem setServer_agenda (s : State) (v : Nat) (x : Server) : (setServer s v x).agenda = s.agenda := rfl
@[simp] theorem setServer_phase (s : State) (v : Nat) (x : Server) : (setServer s v x).phase = s.phase := rfl
@[simp] theorem setServer_focus (s : State) (v : Nat) (x : Server) : (setServer s v x).focus = s.focus := rfl
@[simp] theorem setServer_bundle (s : State) (v : Nat) (x : Server) : (setServer s v x).bundle = s.bundle := rfl
@[simp] theorem setServer_freeCtr (s : State) (v : Nat) (x : Server) : (setServer s v x).freeCtr = s.freeCtr := rfl

/-! ### setLink -/

@[simp] theorem setLink_cycle (s : State) (l : Nat) (x : Link) : (setLink s l x).cycle = s.cycle := rfl
@[simp] theorem setLink_tiles (s : State) (l : Nat) (x : Link) : (setLink s l x).tiles = s.tiles := rfl
@[simp] theorem setLink_lenses (s : State) (l : Nat) (x : Link) : (setLink s l x).lenses = s.lenses := rfl
@[simp] theorem setLink_servers (s : State) (l : Nat) (x : Link) : (setLink s l x).servers = s.servers := rfl
@[simp] theorem setLink_routers (s : State) (l : Nat) (x : Link) : (setLink s l x).routers = s.routers := rfl
@[simp] theorem setLink_hbm (s : State) (l : Nat) (x : Link) : (setLink s l x).hbm = s.hbm := rfl
@[simp] theorem setLink_domains (s : State) (l : Nat) (x : Link) : (setLink s l x).domains = s.domains := rfl
@[simp] theorem setLink_ls (s : State) (l : Nat) (x : Link) : (setLink s l x).ls = s.ls := rfl
@[simp] theorem setLink_ports (s : State) (l : Nat) (x : Link) : (setLink s l x).ports = s.ports := rfl
@[simp] theorem setLink_ordered (s : State) (l : Nat) (x : Link) : (setLink s l x).ordered = s.ordered := rfl
@[simp] theorem setLink_tap (s : State) (l : Nat) (x : Link) : (setLink s l x).tap = s.tap := rfl
@[simp] theorem setLink_agenda (s : State) (l : Nat) (x : Link) : (setLink s l x).agenda = s.agenda := rfl
@[simp] theorem setLink_phase (s : State) (l : Nat) (x : Link) : (setLink s l x).phase = s.phase := rfl
@[simp] theorem setLink_focus (s : State) (l : Nat) (x : Link) : (setLink s l x).focus = s.focus := rfl
@[simp] theorem setLink_bundle (s : State) (l : Nat) (x : Link) : (setLink s l x).bundle = s.bundle := rfl
@[simp] theorem setLink_freeCtr (s : State) (l : Nat) (x : Link) : (setLink s l x).freeCtr = s.freeCtr := rfl

/-! ### setRouter -/

@[simp] theorem setRouter_cycle (s : State) (n : Nat) (x : Router) : (setRouter s n x).cycle = s.cycle := rfl
@[simp] theorem setRouter_tiles (s : State) (n : Nat) (x : Router) : (setRouter s n x).tiles = s.tiles := rfl
@[simp] theorem setRouter_lenses (s : State) (n : Nat) (x : Router) : (setRouter s n x).lenses = s.lenses := rfl
@[simp] theorem setRouter_servers (s : State) (n : Nat) (x : Router) : (setRouter s n x).servers = s.servers := rfl
@[simp] theorem setRouter_links (s : State) (n : Nat) (x : Router) : (setRouter s n x).links = s.links := rfl
@[simp] theorem setRouter_hbm (s : State) (n : Nat) (x : Router) : (setRouter s n x).hbm = s.hbm := rfl
@[simp] theorem setRouter_domains (s : State) (n : Nat) (x : Router) : (setRouter s n x).domains = s.domains := rfl
@[simp] theorem setRouter_ls (s : State) (n : Nat) (x : Router) : (setRouter s n x).ls = s.ls := rfl
@[simp] theorem setRouter_ports (s : State) (n : Nat) (x : Router) : (setRouter s n x).ports = s.ports := rfl
@[simp] theorem setRouter_ordered (s : State) (n : Nat) (x : Router) : (setRouter s n x).ordered = s.ordered := rfl
@[simp] theorem setRouter_tap (s : State) (n : Nat) (x : Router) : (setRouter s n x).tap = s.tap := rfl
@[simp] theorem setRouter_agenda (s : State) (n : Nat) (x : Router) : (setRouter s n x).agenda = s.agenda := rfl
@[simp] theorem setRouter_phase (s : State) (n : Nat) (x : Router) : (setRouter s n x).phase = s.phase := rfl
@[simp] theorem setRouter_focus (s : State) (n : Nat) (x : Router) : (setRouter s n x).focus = s.focus := rfl
@[simp] theorem setRouter_bundle (s : State) (n : Nat) (x : Router) : (setRouter s n x).bundle = s.bundle := rfl
@[simp] theorem setRouter_freeCtr (s : State) (n : Nat) (x : Router) : (setRouter s n x).freeCtr = s.freeCtr := rfl

/-! ### modTile -/

@[simp] theorem modTile_cycle (s : State) (r : Nat) (f : Tile → Tile) : (modTile s r f).cycle = s.cycle := rfl
@[simp] theorem modTile_lenses (s : State) (r : Nat) (f : Tile → Tile) : (modTile s r f).lenses = s.lenses := rfl
@[simp] theorem modTile_servers (s : State) (r : Nat) (f : Tile → Tile) : (modTile s r f).servers = s.servers := rfl
@[simp] theorem modTile_routers (s : State) (r : Nat) (f : Tile → Tile) : (modTile s r f).routers = s.routers := rfl
@[simp] theorem modTile_links (s : State) (r : Nat) (f : Tile → Tile) : (modTile s r f).links = s.links := rfl
@[simp] theorem modTile_hbm (s : State) (r : Nat) (f : Tile → Tile) : (modTile s r f).hbm = s.hbm := rfl
@[simp] theorem modTile_domains (s : State) (r : Nat) (f : Tile → Tile) : (modTile s r f).domains = s.domains := rfl
@[simp] theorem modTile_ls (s : State) (r : Nat) (f : Tile → Tile) : (modTile s r f).ls = s.ls := rfl
@[simp] theorem modTile_ports (s : State) (r : Nat) (f : Tile → Tile) : (modTile s r f).ports = s.ports := rfl
@[simp] theorem modTile_ordered (s : State) (r : Nat) (f : Tile → Tile) : (modTile s r f).ordered = s.ordered := rfl
@[simp] theorem modTile_tap (s : State) (r : Nat) (f : Tile → Tile) : (modTile s r f).tap = s.tap := rfl
@[simp] theorem modTile_agenda (s : State) (r : Nat) (f : Tile → Tile) : (modTile s r f).agenda = s.agenda := rfl
@[simp] theorem modTile_phase (s : State) (r : Nat) (f : Tile → Tile) : (modTile s r f).phase = s.phase := rfl
@[simp] theorem modTile_focus (s : State) (r : Nat) (f : Tile → Tile) : (modTile s r f).focus = s.focus := rfl
@[simp] theorem modTile_bundle (s : State) (r : Nat) (f : Tile → Tile) : (modTile s r f).bundle = s.bundle := rfl
@[simp] theorem modTile_freeCtr (s : State) (r : Nat) (f : Tile → Tile) : (modTile s r f).freeCtr = s.freeCtr := rfl

/-! ### modCur -/

@[simp] theorem modCur_cycle (s : State) (f : Tile → Tile) : (modCur s f).cycle = s.cycle := rfl
@[simp] theorem modCur_lenses (s : State) (f : Tile → Tile) : (modCur s f).lenses = s.lenses := rfl
@[simp] theorem modCur_servers (s : State) (f : Tile → Tile) : (modCur s f).servers = s.servers := rfl
@[simp] theorem modCur_routers (s : State) (f : Tile → Tile) : (modCur s f).routers = s.routers := rfl
@[simp] theorem modCur_links (s : State) (f : Tile → Tile) : (modCur s f).links = s.links := rfl
@[simp] theorem modCur_hbm (s : State) (f : Tile → Tile) : (modCur s f).hbm = s.hbm := rfl
@[simp] theorem modCur_domains (s : State) (f : Tile → Tile) : (modCur s f).domains = s.domains := rfl
@[simp] theorem modCur_ls (s : State) (f : Tile → Tile) : (modCur s f).ls = s.ls := rfl
@[simp] theorem modCur_ports (s : State) (f : Tile → Tile) : (modCur s f).ports = s.ports := rfl
@[simp] theorem modCur_ordered (s : State) (f : Tile → Tile) : (modCur s f).ordered = s.ordered := rfl
@[simp] theorem modCur_tap (s : State) (f : Tile → Tile) : (modCur s f).tap = s.tap := rfl
@[simp] theorem modCur_agenda (s : State) (f : Tile → Tile) : (modCur s f).agenda = s.agenda := rfl
@[simp] theorem modCur_phase (s : State) (f : Tile → Tile) : (modCur s f).phase = s.phase := rfl
@[simp] theorem modCur_focus (s : State) (f : Tile → Tile) : (modCur s f).focus = s.focus := rfl
@[simp] theorem modCur_bundle (s : State) (f : Tile → Tile) : (modCur s f).bundle = s.bundle := rfl
@[simp] theorem modCur_freeCtr (s : State) (f : Tile → Tile) : (modCur s f).freeCtr = s.freeCtr := rfl

/-! ### modLens -/

@[simp] theorem modLens_cycle (s : State) (c : Nat) (f : Lens → Lens) : (modLens s c f).cycle = s.cycle := rfl
@[simp] theorem modLens_tiles (s : State) (c : Nat) (f : Lens → Lens) : (modLens s c f).tiles = s.tiles := rfl
@[simp] theorem modLens_servers (s : State) (c : Nat) (f : Lens → Lens) : (modLens s c f).servers = s.servers := rfl
@[simp] theorem modLens_routers (s : State) (c : Nat) (f : Lens → Lens) : (modLens s c f).routers = s.routers := rfl
@[simp] theorem modLens_links (s : State) (c : Nat) (f : Lens → Lens) : (modLens s c f).links = s.links := rfl
@[simp] theorem modLens_hbm (s : State) (c : Nat) (f : Lens → Lens) : (modLens s c f).hbm = s.hbm := rfl
@[simp] theorem modLens_domains (s : State) (c : Nat) (f : Lens → Lens) : (modLens s c f).domains = s.domains := rfl
@[simp] theorem modLens_ls (s : State) (c : Nat) (f : Lens → Lens) : (modLens s c f).ls = s.ls := rfl
@[simp] theorem modLens_ports (s : State) (c : Nat) (f : Lens → Lens) : (modLens s c f).ports = s.ports := rfl
@[simp] theorem modLens_ordered (s : State) (c : Nat) (f : Lens → Lens) : (modLens s c f).ordered = s.ordered := rfl
@[simp] theorem modLens_tap (s : State) (c : Nat) (f : Lens → Lens) : (modLens s c f).tap = s.tap := rfl
@[simp] theorem modLens_agenda (s : State) (c : Nat) (f : Lens → Lens) : (modLens s c f).agenda = s.agenda := rfl
@[simp] theorem modLens_phase (s : State) (c : Nat) (f : Lens → Lens) : (modLens s c f).phase = s.phase := rfl
@[simp] theorem modLens_focus (s : State) (c : Nat) (f : Lens → Lens) : (modLens s c f).focus = s.focus := rfl
@[simp] theorem modLens_bundle (s : State) (c : Nat) (f : Lens → Lens) : (modLens s c f).bundle = s.bundle := rfl
@[simp] theorem modLens_freeCtr (s : State) (c : Nat) (f : Lens → Lens) : (modLens s c f).freeCtr = s.freeCtr := rfl

/-! ### Reading a part after an update -/

@[simp] theorem tileOf_setTile_self (s : State) (r : Nat) (x : Tile) : tileOf (setTile s r x) r = x := by
  simp [tileOf, setTile]
theorem tileOf_setTile_ne (s : State) (r q : Nat) (x : Tile) (h : q ≠ r) : tileOf (setTile s r x) q = tileOf s q := by
  simp [tileOf, setTile, SMap.getD_insert_ne _ _ _ _ _ h]
@[simp] theorem lensOf_setTile (s : State) (r q : Nat) (x : Tile) : lensOf (setTile s r x) q = lensOf s q := rfl
@[simp] theorem serverOf_setTile (s : State) (r q : Nat) (x : Tile) : serverOf (setTile s r x) q = serverOf s q := rfl
@[simp] theorem linkOf_setTile (s : State) (r q : Nat) (x : Tile) : linkOf (setTile s r x) q = linkOf s q := rfl
@[simp] theorem routerOf_setTile (s : State) (r q : Nat) (x : Tile) : routerOf (setTile s r x) q = routerOf s q := rfl

@[simp] theorem lensOf_setLens_self (s : State) (r : Nat) (x : Lens) : lensOf (setLens s r x) r = x := by
  simp [lensOf, setLens]
theorem lensOf_setLens_ne (s : State) (r q : Nat) (x : Lens) (h : q ≠ r) : lensOf (setLens s r x) q = lensOf s q := by
  simp [lensOf, setLens, SMap.getD_insert_ne _ _ _ _ _ h]
@[simp] theorem tileOf_setLens (s : State) (r q : Nat) (x : Lens) : tileOf (setLens s r x) q = tileOf s q := rfl
@[simp] theorem serverOf_setLens (s : State) (r q : Nat) (x : Lens) : serverOf (setLens s r x) q = serverOf s q := rfl
@[simp] theorem linkOf_setLens (s : State) (r q : Nat) (x : Lens) : linkOf (setLens s r x) q = linkOf s q := rfl
@[simp] theorem routerOf_setLens (s : State) (r q : Nat) (x : Lens) : routerOf (setLens s r x) q = routerOf s q := rfl

@[simp] theorem serverOf_setServer_self (s : State) (r : Nat) (x : Server) : serverOf (setServer s r x) r = x := by
  simp [serverOf, setServer]
theorem serverOf_setServer_ne (s : State) (r q : Nat) (x : Server) (h : q ≠ r) : serverOf (setServer s r x) q = serverOf s q := by
  simp [serverOf, setServer, SMap.getD_insert_ne _ _ _ _ _ h]
@[simp] theorem tileOf_setServer (s : State) (r q : Nat) (x : Server) : tileOf (setServer s r x) q = tileOf s q := rfl
@[simp] theorem lensOf_setServer (s : State) (r q : Nat) (x : Server) : lensOf (setServer s r x) q = lensOf s q := rfl
@[simp] theorem linkOf_setServer (s : State) (r q : Nat) (x : Server) : linkOf (setServer s r x) q = linkOf s q := rfl
@[simp] theorem routerOf_setServer (s : State) (r q : Nat) (x : Server) : routerOf (setServer s r x) q = routerOf s q := rfl

@[simp] theorem linkOf_setLink_self (s : State) (r : Nat) (x : Link) : linkOf (setLink s r x) r = x := by
  simp [linkOf, setLink]
theorem linkOf_setLink_ne (s : State) (r q : Nat) (x : Link) (h : q ≠ r) : linkOf (setLink s r x) q = linkOf s q := by
  simp [linkOf, setLink, SMap.getD_insert_ne _ _ _ _ _ h]
@[simp] theorem tileOf_setLink (s : State) (r q : Nat) (x : Link) : tileOf (setLink s r x) q = tileOf s q := rfl
@[simp] theorem lensOf_setLink (s : State) (r q : Nat) (x : Link) : lensOf (setLink s r x) q = lensOf s q := rfl
@[simp] theorem serverOf_setLink (s : State) (r q : Nat) (x : Link) : serverOf (setLink s r x) q = serverOf s q := rfl
@[simp] theorem routerOf_setLink (s : State) (r q : Nat) (x : Link) : routerOf (setLink s r x) q = routerOf s q := rfl

@[simp] theorem routerOf_setRouter_self (s : State) (r : Nat) (x : Router) : routerOf (setRouter s r x) r = x := by
  simp [routerOf, setRouter]
theorem routerOf_setRouter_ne (s : State) (r q : Nat) (x : Router) (h : q ≠ r) : routerOf (setRouter s r x) q = routerOf s q := by
  simp [routerOf, setRouter, SMap.getD_insert_ne _ _ _ _ _ h]
@[simp] theorem tileOf_setRouter (s : State) (r q : Nat) (x : Router) : tileOf (setRouter s r x) q = tileOf s q := rfl
@[simp] theorem lensOf_setRouter (s : State) (r q : Nat) (x : Router) : lensOf (setRouter s r x) q = lensOf s q := rfl
@[simp] theorem serverOf_setRouter (s : State) (r q : Nat) (x : Router) : serverOf (setRouter s r x) q = serverOf s q := rfl
@[simp] theorem linkOf_setRouter (s : State) (r q : Nat) (x : Router) : linkOf (setRouter s r x) q = linkOf s q := rfl

/-! ### Updates of a part in place -/

@[simp] theorem tileOf_modTile_self (s : State) (r : Nat) (f : Tile → Tile) : tileOf (modTile s r f) r = f (tileOf s r) := by
  simp [modTile]
theorem tileOf_modTile_ne (s : State) (r q : Nat) (f : Tile → Tile) (h : q ≠ r) : tileOf (modTile s r f) q = tileOf s q := by
  simp [modTile, tileOf_setTile_ne s r q _ h]
@[simp] theorem cur_modCur (s : State) (f : Tile → Tile) : cur (modCur s f) = f (cur s) := by
  simp [modCur, cur]
@[simp] theorem cur_setTile_focus (s : State) (t : Tile) : cur (setTile s s.focus.val t) = t := by
  simp [cur]
@[simp] theorem lensOf_modLens_self (s : State) (c : Nat) (f : Lens → Lens) : lensOf (modLens s c f) c = f (lensOf s c) := by
  simp [modLens]

/-- Of two updates of one tile the later remains. -/
theorem SMap.insert_insert {α : Type} (m : SMap α) (k : Nat) (v w : α) :
    SMap.insert (SMap.insert m k v) k w = SMap.insert m k w := by
  induction m with
  | nil => simp [SMap.insert]
  | cons p rest ih =>
    obtain ⟨k', v'⟩ := p
    by_cases h : k = k'
    · simp [SMap.insert, h]
    · by_cases h2 : k < k'
      · simp [SMap.insert, h, h2]
      · simp [SMap.insert, h, h2, ih]

@[simp] theorem setTile_setTile (s : State) (r : Nat) (t u : Tile) : setTile (setTile s r t) r u = setTile s r u := by
  simp [setTile, SMap.insert_insert]

theorem modCur_modCur (s : State) (f g : Tile → Tile) : modCur (modCur s f) g = modCur s (fun t => g (f t)) := by
  simp [modCur, modTile]

/-! ### Vectors -/

@[simp] theorem vget_vset_self {α : Type} {n : Nat} (v : Vector α n) (i : Nat) (x d : α) (h : i < n) :
    vget (vset v i x) i d = x := by
  simp [vget, vset, h]

theorem vget_vset_ne {α : Type} {n : Nat} (v : Vector α n) (i j : Nat) (x d : α) (h : j ≠ i) :
    vget (vset v i x) j d = vget v j d := by
  simp [vget, vset]
  grind

end Sys2Proof.Machine
end

