-- ==== Sys2Proof/Laws/Keeper.lean ====
section
/-! SUPPORT. What the shared operations of the keeper do. -/

namespace Sys2Proof.Machine

open Sys2Proof.Claims

/-- Reading a register after a write (R198). -/
theorem Keeper.get_put (k : Keeper) (d x : BitVec 5) (v : W64) :
    (k.put d v).get x = if x = d ∧ d ≠ 0 then v else k.get x := by
  by_cases hd : d = 0
  · subst hd
    rw [show k.put 0 v = k from if_pos rfl, if_neg (fun h => h.2 rfl)]
  · rw [show k.put d v = { k with k := vset k.k d.toNat v } from if_neg hd]
    by_cases hx : x = d
    · subst hx
      rw [if_pos ⟨rfl, hd⟩]
      exact (if_neg hd).trans (vget_vset_self _ _ _ _ x.isLt)
    · rw [if_neg (fun h => hx h.1)]
      have hne : x.toNat ≠ d.toNat := fun h => hx (BitVec.eq_of_toNat_eq h)
      unfold Keeper.get
      split
      · rfl
      · exact vget_vset_ne _ _ _ _ _ hne

/-- What `retireReg` does (R198, R229). -/
theorem retireReg_writes (s : State) (d : BitVec 5) (v : W64) (lat : Nat) :
    WritesReg s (.next (retireReg s d v lat)) d v lat := by
  unfold WritesReg TileNext retireReg advance goTo putReg
  by_cases hd : d = 0
  · subst hd
    refine ⟨_, rfl, rfl, ⟨?_, ?_, ?_⟩, ?_, rfl⟩
    · intro x; simp [Keeper.get, cur]
    · intro h; exact absurd rfl h
    · intro n _; rfl
    · exact ⟨rfl, rfl, rfl, rfl, rfl⟩
  · have hp : ∀ k : Keeper, k.put d v = { k with k := vset k.k d.toNat v } := fun k => if_neg hd
    simp only [if_neg hd, hp]
    refine ⟨{ cur s with keeper := { (cur s).keeper with
        k := vset (cur s).keeper.k d.toNat v
        regReady := vset (cur s).keeper.regReady d.toNat (Nat.max (vget (cur s).keeper.regReady d.toNat 0) (s.cycle + lat))
        pc := (cur s).keeper.pc + 4
        issueAt := s.cycle + Nat.max 1 (issueGap (cur s)), waiting := none, ticket := none } }, ?_, rfl, ?_, ?_, rfl⟩
    · congr 1
      simp only [modCur, modTile, setTile_setTile, setTile_focus, tileOf_setTile_self, cur]
      rfl
    · refine ⟨fun x => ?_, fun _ => ?_, fun n hn => ?_⟩
      · have h := Keeper.get_put (cur s).keeper d x v
        rw [hp] at h
        exact h
      · exact vget_vset_self _ _ _ _ d.isLt
      · exact vget_vset_ne _ _ _ _ _ hn
    · exact ⟨rfl, rfl, rfl, rfl, rfl⟩

theorem goTo_goes (s : State) (pc : W64) (n : Nat) :
    TileNext s (.next (goTo s pc n)) (fun t => KeeperOnly s t ∧ GoesTo s t.keeper pc n) :=
  ⟨_, rfl, rfl, fun _ => rfl, ⟨rfl, rfl, rfl, rfl, rfl⟩, rfl, Nat.add_le_add_left (Nat.le_max_left ..) _⟩

theorem advance_advances (s : State) : OnlyAdvances s (.next (advance s)) := goTo_goes s _ 1

/-- What writing a register and going elsewhere does (R235). -/
theorem goTo_putReg (s : State) (d : BitVec 5) (v pc : W64) (lat n : Nat) :
    TileNext s (.next (goTo (putReg s d v lat) pc n)) (fun t => KeeperOnly s t ∧ RegWritten s t.keeper d v lat ∧
      SameMode (cur s).keeper t.keeper ∧ t.keeper.pc = pc ∧ s.cycle + n ≤ t.keeper.issueAt) := by
  unfold TileNext goTo putReg
  have hn (t : Tile) : s.cycle + n ≤ s.cycle + Nat.max n (issueGap t) := Nat.add_le_add_left (Nat.le_max_left ..) _
  by_cases hd : d = 0
  · subst hd
    refine ⟨_, rfl, rfl, ⟨?_, ?_, ?_⟩, ?_, rfl, hn _⟩
    · intro x; simp [Keeper.get, cur]
    · intro h; exact absurd rfl h
    · intro n _; rfl
    · exact ⟨rfl, rfl, rfl, rfl, rfl⟩
  · have hp : ∀ k : Keeper, k.put d v = { k with k := vset k.k d.toNat v } := fun k => if_neg hd
    simp only [if_neg hd, hp]
    refine ⟨{ cur s with keeper := { (cur s).keeper with
        k := vset (cur s).keeper.k d.toNat v
        regReady := vset (cur s).keeper.regReady d.toNat (Nat.max (vget (cur s).keeper.regReady d.toNat 0) (s.cycle + lat))
        pc := pc, issueAt := s.cycle + Nat.max n (issueGap (cur s)), waiting := none, ticket := none } },
        ?_, rfl, ?_, ?_, rfl, hn _⟩
    · congr 1
      simp only [modCur, modTile, setTile_setTile, setTile_focus, tileOf_setTile_self, cur]
      rfl
    · refine ⟨fun x => ?_, fun _ => ?_, fun n hn => ?_⟩
      · have h := Keeper.get_put (cur s).keeper d x v
        rw [hp] at h
        exact h
      · exact vget_vset_self _ _ _ _ d.isLt
      · exact vget_vset_ne _ _ _ _ _ hn
    · exact ⟨rfl, rfl, rfl, rfl, rfl⟩

/-! ## Traps -/

theorem fld_eq (w : W64) (lo n : Nat) : fld w lo n = w.toNat / 2 ^ lo % 2 ^ n := by
  simp [fld, Nat.shiftRight_eq_div_pow]

theorem bit_eq (w : W64) (i : Nat) : bit w i = decide (w.toNat / 2 ^ i % 2 = 1) := by
  simp [bit, BitVec.getLsbD, Nat.testBit_eq_decide_div_mod_eq]

/-- The fields of a cause word (R218). -/
theorem causeWord_fields (async : Bool) (cause agent tok : Nat) (hc : cause < 16) (ha : agent < 32) (ht : tok < 64) :
    CauseIs (causeWord async cause agent tok) async cause agent tok := by
  have hw : (causeWord async cause agent tok).toNat = ofBool async * 2 ^ 31 + tok * 2 ^ 16 + agent * 2 ^ 8 + cause := by
    unfold causeWord ofBool
    rw [BitVec.toNat_ofNat, Nat.mod_eq_of_lt hc, Nat.mod_eq_of_lt ha, Nat.mod_eq_of_lt ht]
    split <;> omega
  unfold CauseIs
  rw [fld_eq, fld_eq, fld_eq, bit_eq, hw]
  cases async <;> simp [ofBool] <;> omega

/-- Setting or clearing one bit, read back. -/
theorem bit_putBit_self (w : W64) (i : Nat) (b : Bool) (h : i < 64) : bit (putBit w i b) i = b := by
  unfold bit putBit oneBit
  cases b <;> simp [h]

theorem bit_putBit_ne (w : W64) (i j : Nat) (b : Bool) (h : j ≠ i) : bit (putBit w i b) j = bit w j := by
  unfold bit putBit oneBit
  rcases Nat.lt_or_ge j i with h1 | h1
  · cases b <;> simp [h1]
    exact fun hj => BitVec.lt_of_getLsbD hj
  · have : j - i ≠ 0 := by omega
    cases b <;> simp [this]
    exact fun hj => BitVec.lt_of_getLsbD hj

/-- Fields that a changed bit lies outside of. -/
theorem fld_putBit_29 (w : W64) (b : Bool) (lo n : Nat) (h : lo + n ≤ 29) : fld (putBit w 29 b) lo n = fld w lo n := by
  unfold fld
  apply Nat.eq_of_testBit_eq
  intro j
  rw [Nat.testBit_mod_two_pow, Nat.testBit_mod_two_pow]
  by_cases hj : j < n
  · have := bit_putBit_ne w 29 (lo + j) b (by omega)
    simp only [bit] at this
    simp only [hj, decide_true, Bool.true_and]
    change ((putBit w 29 b) >>> lo).getLsbD j = (w >>> lo).getLsbD j
    rw [BitVec.getLsbD_ushiftRight, BitVec.getLsbD_ushiftRight, this]
  · simp [hj]

/-- The handler address of TRAPVEC (R219). -/
theorem trapvec_pc (v : W64) : BitVec.ofNat 64 (fld v 2 19 * 4) = v &&& maskBits 2 19 := by
  apply BitVec.eq_of_getLsbD_eq
  intro j hj
  have hm : maskBits 2 19 = BitVec.ofNat 64 ((2 ^ 19 - 1) <<< 2) := rfl
  have h4 : fld v 2 19 * 4 = fld v 2 19 <<< 2 := by rw [Nat.shiftLeft_eq]
  rw [BitVec.getLsbD_and, hm, h4, BitVec.getLsbD_ofNat, BitVec.getLsbD_ofNat, Nat.testBit_shiftLeft,
    Nat.testBit_shiftLeft, Nat.testBit_two_pow_sub_one]
  unfold fld
  rw [Nat.testBit_mod_two_pow]
  by_cases h2 : 2 ≤ j
  · have : (v >>> 2).toNat.testBit (j - 2) = v.getLsbD j := by
      have := BitVec.getLsbD_ushiftRight v 2 (j - 2)
      rw [show 2 + (j - 2) = j by omega] at this
      exact this
    rw [this]
    cases v.getLsbD j <;> simp [hj, h2]
  · simp [h2]

/-- What `takeTrap` does when the trap goes to station level (R219). -/
theorem takeTrap_station (async : Bool) (cause : Nat) (val : W64) (agent tok : Nat) (resume : W64) (now : Nat) (t : Tile)
    (hc : cause < 16) (ha : agent < 32) (ht : tok < 64) (h : ToStation t) :
    TrappedToStation t (takeTrap async cause val agent tok resume now t) async cause val resume agent tok := by
  have hf := causeWord_fields async cause agent tok hc ha ht
  have hs : (t.keeper.station || cause == 10 || cause == 11 || t.keeper.inTrap || !bit t.ctrl.trapvec 0) = true := by
    rcases h with h | h | h <;> simp [h]
  unfold takeTrap
  simp only [hs, if_true]
  refine ⟨rfl, rfl, rfl, rfl, ?_, bit_putBit_self _ _ _ (by decide)⟩
  obtain ⟨h1, h2, h3, h4⟩ := hf
  refine ⟨?_, ?_, ?_, ?_⟩
  · exact (fld_putBit_29 _ _ 0 4 (by decide)).trans h1
  · exact (fld_putBit_29 _ _ 8 5 (by decide)).trans h2
  · exact (fld_putBit_29 _ _ 16 6 (by decide)).trans h3
  · exact (bit_putBit_ne _ 29 31 _ (by decide)).trans h4

/-- What `takeTrap` does when the trap stays at job level (R219). -/
theorem takeTrap_job (async : Bool) (cause : Nat) (val : W64) (agent tok : Nat) (resume : W64) (now : Nat) (t : Tile)
    (hc : cause < 16) (ha : agent < 32) (ht : tok < 64) (h10 : cause ≠ 10) (h11 : cause ≠ 11) (h : ¬ ToStation t) :
    TrappedToJob t (takeTrap async cause val agent tok resume now t) async cause val resume agent tok := by
  have hf := causeWord_fields async cause agent tok hc ha ht
  simp only [ToStation, not_or, Bool.not_eq_true, Bool.not_eq_false] at h
  have hs : (t.keeper.station || cause == 10 || cause == 11 || t.keeper.inTrap || !bit t.ctrl.trapvec 0) = false := by
    simp [h, h10, h11]
  unfold takeTrap
  simp only [hs]
  exact ⟨rfl, h.1, trapvec_pc _, rfl, hf⟩

/-- What `takeTrap` leaves as it was. -/
theorem takeTrap_frame (async : Bool) (cause : Nat) (val : W64) (agent tok : Nat) (resume : W64) (now : Nat) (t : Tile) :
    let t' := takeTrap async cause val agent tok resume now t
    t' = { t with keeper := t'.keeper, ctrl := t'.ctrl } ∧ t'.keeper.k = t.keeper.k ∧ t'.keeper.issueAt = now + 3 ∧
      t'.keeper.waiting = none := by
  unfold takeTrap
  dsimp only
  split <;> exact ⟨rfl, rfl, rfl, rfl⟩

/-- What entering a trap does to the package (R219, R445). -/
theorem enterTrap_eq (cause : Nat) (f : Tile → Tile) (s : State) :
    ∃ ls, enterTrap cause f s = { setTile s s.focus.val (f (cur s)) with ls := ls } ∧
      (failsJob cause (cur s) = false → ls = s.ls) := by
  unfold enterTrap
  dsimp only
  split
  · rename_i h
    exact ⟨_, rfl, fun h' => by simp [h] at h'⟩
  · exact ⟨s.ls, rfl, fun _ => rfl⟩

/-- What a synchronous trap with a given agent and token does (R219). -/
theorem enterTrap_traps (s : State) (cause : Nat) (val : W64) (agent tok : Nat) (h : cause < 16) (ha : agent < 32)
    (ht : tok < 64) (h10 : cause ≠ 10) (h11 : cause ≠ 11) :
    TrapsSync s (.next (enterTrap cause (fun t => takeTrap false cause val agent tok t.keeper.pc s.cycle t) s)) cause val
      agent tok := by
  obtain ⟨ls, he, hl⟩ := enterTrap_eq cause (fun t => takeTrap false cause val agent tok t.keeper.pc s.cycle t) s
  obtain ⟨f1, f2, f3, f4⟩ := takeTrap_frame false cause val agent tok (cur s).keeper.pc s.cycle (cur s)
  refine ⟨_, ls, congrArg _ he, f1, f2, f3, f4, takeTrap_station _ _ _ _ _ _ _ _ h ha ht, fun hn =>
    ⟨takeTrap_job _ _ _ _ _ _ _ _ h ha ht h10 h11 hn, hl ?_⟩⟩
  simp only [ToStation, not_or, Bool.not_eq_true, Bool.not_eq_false] at hn
  simp [failsJob, hn]

theorem syncTrap_traps (s : State) (cause : Nat) (val : W64) (h : cause < 16) (h10 : cause ≠ 10) (h11 : cause ≠ 11) :
    TrapsSync s (.next (syncTrap cause val s)) cause val 31 0 :=
  enterTrap_traps s cause val 31 0 h (by decide) (by decide) h10 h11

/-! ## Accesses to SRAM -/

/-- Where the undo log of a checkpoint does not stand (R221). -/
def offLog (x : Nat) : Prop := x < 0x1D3000 ∨ 0x1F0000 ≤ x

/-- What logging a granule does: the undo log of an open checkpoint in SRAM, and its event; a second time, nothing. -/
theorem logGranule_eq (a : Nat) (t : Tile) :
    ∃ ck ev m, logGranule a t = { t with sram := m, ckpt := ck, ctrl := { t.ctrl with events := ev } } ∧
      (t.ckpt = none → ck = none ∧ ev = t.ctrl.events ∧ m = t.sram) ∧
      (∀ x, offLog x → Mem.read m x = Mem.read t.sram x) ∧
      (∀ c, ck = some c → (c.granules.map Prod.fst).contains (a / 16 * 16) = true) := by
  unfold logGranule
  split
  · rename_i hc
    exact ⟨t.ckpt, t.ctrl.events, t.sram, rfl, fun h => ⟨h, rfl, rfl⟩, fun _ _ => rfl, fun c h => by simp [hc] at h⟩
  · rename_i c hc
    have hn : t.ckpt = none → False := fun h => by simp [hc] at h
    dsimp only
    split
    · rename_i hg
      refine ⟨t.ckpt, t.ctrl.events, t.sram, rfl, fun h => (hn h).elim, fun _ _ => rfl, fun c' h => ?_⟩
      rw [hc] at h
      exact Option.some.inj h ▸ hg
    · split
      · exact ⟨none, _, t.sram, rfl, fun h => (hn h).elim, fun _ _ => rfl, fun c h => by simp at h⟩
      · rename_i hl
        refine ⟨_, t.ctrl.events, _, rfl, fun h => (hn h).elim, fun x hx => ?_, fun c' h => ?_⟩
        · refine Mem.read_writeN_out _ _ _ _ ?_
          have hb : (undoEntry false (a / 16 * 16 / 16) (Mem.granule t.sram (a / 16 * 16))).length = 20 := by
            simp [undoEntry]
          simp only [undoMax, Nat.not_le] at hl
          rw [hb]
          unfold offLog at hx
          unfold undoAt
          omega
        · rw [← Option.some.inj h]
          simp

/-- A granule that is logged, or that no checkpoint asks for, is not logged again. -/
theorem logGranule_idle (a : Nat) (t : Tile)
    (h : ∀ c, t.ckpt = some c → (c.granules.map Prod.fst).contains (a / 16 * 16) = true) : logGranule a t = t := by
  unfold logGranule
  split
  · rfl
  · rename_i c hc
    dsimp only
    rw [if_pos (h c hc)]

/-- What storing a byte does: SRAM, and the undo log of an open checkpoint with its event. -/
theorem storeByte_eq (a : Nat) (b : Byte) (t : Tile) :
    ∃ ck ev m, storeByte a b t = { t with sram := Mem.write m a b, ckpt := ck, ctrl := { t.ctrl with events := ev } } ∧
      (t.ckpt = none → ck = none ∧ ev = t.ctrl.events ∧ m = t.sram) ∧
      (∀ x, offLog x → Mem.read m x = Mem.read t.sram x) ∧
      (∀ c, ck = some c → (c.granules.map Prod.fst).contains (a / 16 * 16) = true) := by
  obtain ⟨ck, ev, m, e, h⟩ := logGranule_eq a t
  exact ⟨ck, ev, m, by rw [storeByte, e], h⟩

/-- What storing bytes does. -/
theorem storeBytes_eq (bs : List Byte) (a : Nat) (t : Tile) :
    ∃ ck ev m, storeBytes a bs t = { t with sram := m, ckpt := ck, ctrl := { t.ctrl with events := ev } } ∧
      (t.ckpt = none → ck = none ∧ ev = t.ctrl.events ∧ m = Mem.writeN t.sram a bs) ∧
      (∀ x, offLog x → Mem.read m x = Mem.read (Mem.writeN t.sram a bs) x) := by
  induction bs generalizing a t with
  | nil => exact ⟨t.ckpt, t.ctrl.events, t.sram, rfl, fun h => ⟨h, rfl, rfl⟩, fun _ _ => rfl⟩
  | cons b bs ih =>
    obtain ⟨ck, ev, m, e, g, o, _⟩ := storeByte_eq a b t
    obtain ⟨ck', ev', m', e', g', o'⟩ := ih (a + 1) (storeByte a b t)
    refine ⟨ck', ev', m', ?_, fun h => ?_, fun x hx => ?_⟩
    · rw [storeBytes, e', e]
    · rw [e] at g'
      obtain ⟨h1, h2, h3⟩ := g h
      obtain ⟨h4, h5, h6⟩ := g' h1
      exact ⟨h4, h5.trans h2, by rw [h6, h3]; rfl⟩
    · rw [o' x hx, e]
      exact Mem.read_writeN_congr bs _ _ _ _ (by rw [Mem.read_write, Mem.read_write, o x hx])

/-- What storing bytes of one granule does: the log takes its entry before the first of them. -/
theorem storeBytes_granule (bs : List Byte) (a : Nat) (t : Tile) (h : a % 16 + bs.length ≤ 16) :
    storeBytes a bs t = { logGranule a t with sram := Mem.writeN (logGranule a t).sram a bs } ∨ bs = [] := by
  induction bs generalizing a t with
  | nil => exact .inr rfl
  | cons b bs ih =>
    left
    rw [storeBytes]
    rcases bs with _ | ⟨b', bs⟩
    · rfl
    · have hl : (a + 1) % 16 + (b' :: bs).length ≤ 16 := by simp at h ⊢; omega
      have hg : (a + 1) / 16 = a / 16 := by simp at h; omega
      have hi : logGranule (a + 1) (storeByte a b t) = storeByte a b t := by
        refine logGranule_idle _ _ fun c hc => ?_
        obtain ⟨ck, ev, m, e, _, _, k⟩ := storeByte_eq a b t
        rw [e] at hc
        rw [hg]
        exact k c hc
      rcases ih (a + 1) (storeByte a b t) hl with e | e
      · rw [e, hi]
        rfl
      · exact absurd e (by simp)

/-- What a byte of stored bytes reads as (R9). -/
theorem Mem.read_writeN_in (bs : List Byte) (m : Mem) (a i : Nat) (h : i < bs.length) :
    Mem.read (Mem.writeN m a bs) (a + i) = bs[i] := by
  induction bs generalizing m a i with
  | nil => simp at h
  | cons b bs ih =>
    cases i with
    | zero => rw [Mem.writeN, Mem.read_writeN_out _ _ _ _ (by omega)]; exact Mem.read_write_self m a b
    | succ i =>
      have := ih (Mem.write m a b) (a + 1) i (by simpa using h)
      rw [show a + (i + 1) = a + 1 + i by omega]
      simpa [Mem.writeN] using this

/-- An access that nothing turns away is performed (R234). -/
theorem keeperAccess_ok (a : W64) (n : Nat) (store skew : Bool) (k : Nat → State → State) (s : State)
    (h : AccessOk s a.toNat n store skew) : keeperAccess a n store skew k s = k (accessAt s skew a.toNat) s := by
  obtain ⟨h1, h2, h3⟩ := h
  unfold accessAt at *
  unfold keeperAccess
  simp [h1, h2, h3]

end Sys2Proof.Machine
end

