-- ==== Sys2Proof/Laws/PerInstr.lean ====
section
/-! SUPPORT. Per-instruction laws: an instruction has at most one form, a word of the keeper or a trigger port of a lamp. -/

namespace Sys2Proof.Laws.OneForm

/-- An instruction that has a keeper word has no trigger port. -/
def Statement (i : Instr) : Prop := (encode i).isSome = true → portOf i = none

theorem add x0 x1 x2 : Statement (.add x0 x1 x2) := fun _ => rfl
theorem sub x0 x1 x2 : Statement (.sub x0 x1 x2) := fun _ => rfl
theorem and x0 x1 x2 : Statement (.and x0 x1 x2) := fun _ => rfl
theorem or x0 x1 x2 : Statement (.or x0 x1 x2) := fun _ => rfl
theorem xor x0 x1 x2 : Statement (.xor x0 x1 x2) := fun _ => rfl
theorem andn x0 x1 x2 : Statement (.andn x0 x1 x2) := fun _ => rfl
theorem shl x0 x1 x2 : Statement (.shl x0 x1 x2) := fun _ => rfl
theorem shr x0 x1 x2 : Statement (.shr x0 x1 x2) := fun _ => rfl
theorem sar x0 x1 x2 : Statement (.sar x0 x1 x2) := fun _ => rfl
theorem slt x0 x1 x2 : Statement (.slt x0 x1 x2) := fun _ => rfl
theorem sltu x0 x1 x2 : Statement (.sltu x0 x1 x2) := fun _ => rfl
theorem min x0 x1 x2 : Statement (.min x0 x1 x2) := fun _ => rfl
theorem max x0 x1 x2 : Statement (.max x0 x1 x2) := fun _ => rfl
theorem minu x0 x1 x2 : Statement (.minu x0 x1 x2) := fun _ => rfl
theorem maxu x0 x1 x2 : Statement (.maxu x0 x1 x2) := fun _ => rfl
theorem mul x0 x1 x2 : Statement (.mul x0 x1 x2) := fun _ => rfl
theorem mulh x0 x1 x2 : Statement (.mulh x0 x1 x2) := fun _ => rfl
theorem mulhu x0 x1 x2 : Statement (.mulhu x0 x1 x2) := fun _ => rfl
theorem div x0 x1 x2 : Statement (.div x0 x1 x2) := fun _ => rfl
theorem divu x0 x1 x2 : Statement (.divu x0 x1 x2) := fun _ => rfl
theorem rem x0 x1 x2 : Statement (.rem x0 x1 x2) := fun _ => rfl
theorem remu x0 x1 x2 : Statement (.remu x0 x1 x2) := fun _ => rfl
theorem popc x0 x1 : Statement (.popc x0 x1) := fun _ => rfl
theorem clz x0 x1 : Statement (.clz x0 x1) := fun _ => rfl
theorem ctz x0 x1 : Statement (.ctz x0 x1) := fun _ => rfl
theorem addi x0 x1 x2 : Statement (.addi x0 x1 x2) := fun _ => rfl
theorem andi x0 x1 x2 : Statement (.andi x0 x1 x2) := fun _ => rfl
theorem ori x0 x1 x2 : Statement (.ori x0 x1 x2) := fun _ => rfl
theorem xori x0 x1 x2 : Statement (.xori x0 x1 x2) := fun _ => rfl
theorem slti x0 x1 x2 : Statement (.slti x0 x1 x2) := fun _ => rfl
theorem sltiu x0 x1 x2 : Statement (.sltiu x0 x1 x2) := fun _ => rfl
theorem shli x0 x1 x2 : Statement (.shli x0 x1 x2) := fun _ => rfl
theorem shri x0 x1 x2 : Statement (.shri x0 x1 x2) := fun _ => rfl
theorem sari x0 x1 x2 : Statement (.sari x0 x1 x2) := fun _ => rfl
theorem addhi x0 x1 x2 : Statement (.addhi x0 x1 x2) := fun _ => rfl
theorem lb x0 x1 x2 : Statement (.lb x0 x1 x2) := fun _ => rfl
theorem lbu x0 x1 x2 : Statement (.lbu x0 x1 x2) := fun _ => rfl
theorem lh x0 x1 x2 : Statement (.lh x0 x1 x2) := fun _ => rfl
theorem lhu x0 x1 x2 : Statement (.lhu x0 x1 x2) := fun _ => rfl
theorem lw x0 x1 x2 : Statement (.lw x0 x1 x2) := fun _ => rfl
theorem lwu x0 x1 x2 : Statement (.lwu x0 x1 x2) := fun _ => rfl
theorem ld x0 x1 x2 : Statement (.ld x0 x1 x2) := fun _ => rfl
theorem ldSk x0 x1 x2 : Statement (.ldSk x0 x1 x2) := fun _ => rfl
theorem sb x0 x1 x2 : Statement (.sb x0 x1 x2) := fun _ => rfl
theorem sh x0 x1 x2 : Statement (.sh x0 x1 x2) := fun _ => rfl
theorem sw x0 x1 x2 : Statement (.sw x0 x1 x2) := fun _ => rfl
theorem sd x0 x1 x2 : Statement (.sd x0 x1 x2) := fun _ => rfl
theorem sdSk x0 x1 x2 : Statement (.sdSk x0 x1 x2) := fun _ => rfl
theorem beq x0 x1 x2 : Statement (.beq x0 x1 x2) := fun _ => rfl
theorem bne x0 x1 x2 : Statement (.bne x0 x1 x2) := fun _ => rfl
theorem blt x0 x1 x2 : Statement (.blt x0 x1 x2) := fun _ => rfl
theorem bge x0 x1 x2 : Statement (.bge x0 x1 x2) := fun _ => rfl
theorem bltu x0 x1 x2 : Statement (.bltu x0 x1 x2) := fun _ => rfl
theorem bgeu x0 x1 x2 : Statement (.bgeu x0 x1 x2) := fun _ => rfl
theorem j x0 : Statement (.j x0) := fun _ => rfl
theorem jal x0 : Statement (.jal x0) := fun _ => rfl
theorem jalr x0 x1 x2 : Statement (.jalr x0 x1 x2) := fun _ => rfl
theorem crr x0 x1 : Statement (.crr x0 x1) := fun _ => rfl
theorem crw x0 x1 : Statement (.crw x0 x1) := fun _ => rfl
theorem crs x0 x1 : Statement (.crs x0 x1) := fun _ => rfl
theorem crc x0 x1 : Statement (.crc x0 x1) := fun _ => rfl
theorem waitev x0 x1 : Statement (.waitev x0 x1) := fun _ => rfl
theorem twait x0 : Statement (.twait x0) := fun _ => rfl
theorem twaita x0 x1 : Statement (.twaita x0 x1) := fun _ => rfl
theorem done x0 : Statement (.done x0) := fun _ => rfl
theorem ann x0 x1 x2 x3 : Statement (.ann x0 x1 x2 x3) := fun _ => rfl
theorem annL x0 x1 x2 : Statement (.annL x0 x1 x2) := fun _ => rfl
theorem voteAnd x0 x1 x2 x3 : Statement (.voteAnd x0 x1 x2 x3) := fun _ => rfl
theorem voteOr x0 x1 x2 x3 : Statement (.voteOr x0 x1 x2 x3) := fun _ => rfl
theorem voteMax x0 x1 x2 x3 : Statement (.voteMax x0 x1 x2 x3) := fun _ => rfl
theorem voteMin x0 x1 x2 x3 : Statement (.voteMin x0 x1 x2 x3) := fun _ => rfl
theorem voteMaxs x0 x1 x2 x3 : Statement (.voteMaxs x0 x1 x2 x3) := fun _ => rfl
theorem voteMins x0 x1 x2 x3 : Statement (.voteMins x0 x1 x2 x3) := fun _ => rfl
theorem scan x0 x1 x2 x3 x4 : Statement (.scan x0 x1 x2 x3 x4) := fun _ => rfl
theorem bar x0 x1 x2 : Statement (.bar x0 x1 x2) := fun _ => rfl
theorem barx x0 x1 x2 : Statement (.barx x0 x1 x2) := fun _ => rfl
theorem cpMove x0 x1 x2 x3 x4 x5 : Statement (.cpMove x0 x1 x2 x3 x4 x5) := fun _ => rfl
theorem cpGather x0 x1 x2 x3 : Statement (.cpGather x0 x1 x2 x3) := fun _ => rfl
theorem cpScatter x0 x1 x2 x3 : Statement (.cpScatter x0 x1 x2 x3) := fun _ => rfl
theorem cpPlane x0 x1 x2 x3 : Statement (.cpPlane x0 x1 x2 x3) := fun _ => rfl
theorem cpUnplane x0 x1 x2 x3 : Statement (.cpUnplane x0 x1 x2 x3) := fun _ => rfl
theorem cpPx8Enc x0 x1 x2 x3 : Statement (.cpPx8Enc x0 x1 x2 x3) := fun _ => rfl
theorem cpPx8Dec x0 x1 x2 x3 : Statement (.cpPx8Dec x0 x1 x2 x3) := fun _ => rfl
theorem cpPx8Bf16 x0 x1 x2 x3 : Statement (.cpPx8Bf16 x0 x1 x2 x3) := fun _ => rfl
theorem cpPx8Encbf x0 x1 x2 x3 : Statement (.cpPx8Encbf x0 x1 x2 x3) := fun _ => rfl
theorem cpCvt x0 x1 x2 x3 : Statement (.cpCvt x0 x1 x2 x3) := fun _ => rfl
theorem cpAcc x0 x1 x2 x3 x4 : Statement (.cpAcc x0 x1 x2 x3 x4) := fun _ => rfl
theorem cpTopk x0 x1 x2 x3 x4 : Statement (.cpTopk x0 x1 x2 x3 x4) := fun _ => rfl
theorem cpFill x0 x1 x2 x3 : Statement (.cpFill x0 x1 x2 x3) := fun _ => rfl
theorem turn x0 x1 : Statement (.turn x0 x1) := fun _ => rfl
theorem turnW x0 x1 : Statement (.turnW x0 x1) := fun _ => rfl
theorem turnq x0 x1 : Statement (.turnq x0 x1) := fun _ => rfl
theorem turnqTx x0 x1 : Statement (.turnqTx x0 x1) := fun _ => rfl
theorem turnqRx x0 x1 : Statement (.turnqRx x0 x1) := fun _ => rfl
theorem winset x0 x1 x2 x3 : Statement (.winset x0 x1 x2 x3) := fun _ => rfl
theorem wincommit x0 : Statement (.wincommit x0) := fun _ => rfl
theorem winq x0 x1 : Statement (.winq x0 x1) := fun _ => rfl
theorem winqSt x0 x1 : Statement (.winqSt x0 x1) := fun _ => rfl
theorem winqGen x0 : Statement (.winqGen x0) := fun _ => rfl
theorem winqAllot x0 x1 : Statement (.winqAllot x0 x1) := fun _ => rfl
theorem flash x0 x1 : Statement (.flash x0 x1) := fun _ => rfl
theorem lstart x0 x1 : Statement (.lstart x0 x1) := fun _ => rfl
theorem lstop x0 : Statement (.lstop x0) := fun _ => rfl
theorem ljoin x0 x1 : Statement (.ljoin x0 x1) := fun _ => rfl
theorem lgroup x0 x1 : Statement (.lgroup x0 x1) := fun _ => rfl
theorem lstate x0 x1 : Statement (.lstate x0 x1) := fun _ => rfl
theorem lwrite x0 x1 : Statement (.lwrite x0 x1) := fun _ => rfl
theorem lspillOut x0 x1 x2 x3 : Statement (.lspillOut x0 x1 x2 x3) := fun _ => rfl
theorem lspillIn x0 x1 x2 x3 : Statement (.lspillIn x0 x1 x2 x3) := fun _ => rfl
theorem send x0 x1 x2 x3 : Statement (.send x0 x1 x2 x3) := fun _ => rfl
theorem ssend x0 x1 x2 x3 : Statement (.ssend x0 x1 x2 x3) := fun _ => rfl
theorem sendTree x0 x1 x2 x3 : Statement (.sendTree x0 x1 x2 x3) := fun _ => rfl
theorem recv x0 x1 x2 x3 : Statement (.recv x0 x1 x2 x3) := fun _ => rfl
theorem recvAdd x0 x1 x2 x3 : Statement (.recvAdd x0 x1 x2 x3) := fun _ => rfl
theorem recvPx8 x0 x1 x2 x3 : Statement (.recvPx8 x0 x1 x2 x3) := fun _ => rfl
theorem probe x0 x1 x2 : Statement (.probe x0 x1 x2) := fun _ => rfl
theorem probeLen x0 x1 x2 : Statement (.probeLen x0 x1 x2) := fun _ => rfl
theorem cancel x0 x1 : Statement (.cancel x0 x1) := fun _ => rfl
theorem mwait x0 x1 : Statement (.mwait x0 x1) := fun _ => rfl
theorem mtest x0 x1 x2 : Statement (.mtest x0 x1 x2) := fun _ => rfl
theorem mstat x0 x1 : Statement (.mstat x0 x1) := fun _ => rfl
theorem mquiesce x0 : Statement (.mquiesce x0) := fun _ => rfl
theorem lmm x0 x1 x2 x3 : Statement (.lmm x0 x1 x2 x3) := fun _ => rfl
theorem lmms x0 x1 x2 x3 : Statement (.lmms x0 x1 x2 x3) := fun _ => rfl
theorem lrank x0 x1 x2 x3 : Statement (.lrank x0 x1 x2 x3) := fun _ => rfl
theorem accLoad x0 x1 x2 x3 : Statement (.accLoad x0 x1 x2 x3) := fun _ => rfl
theorem accClr x0 x1 x2 x3 : Statement (.accClr x0 x1 x2 x3) := fun _ => rfl
theorem accMerge x0 x1 x2 x3 : Statement (.accMerge x0 x1 x2 x3) := fun _ => rfl
theorem drain x0 x1 x2 x3 : Statement (.drain x0 x1 x2 x3) := fun _ => rfl
theorem accFree x0 x1 x2 x3 : Statement (.accFree x0 x1 x2 x3) := fun _ => rfl
theorem accOwn x0 x1 x2 x3 : Statement (.accOwn x0 x1 x2 x3) := fun _ => rfl
theorem accAlloc x0 x1 : Statement (.accAlloc x0 x1) := fun _ => rfl
theorem lqueryStatus x0 x1 : Statement (.lqueryStatus x0 x1) := fun _ => rfl
theorem lqueryFault x0 x1 : Statement (.lqueryFault x0 x1) := fun _ => rfl
theorem lqueryBank x0 x1 : Statement (.lqueryBank x0 x1) := fun _ => rfl
theorem iaAdd x0 x1 : Statement (.iaAdd x0 x1) := fun h => (Bool.false_ne_true h).elim
theorem iaSub x0 x1 : Statement (.iaSub x0 x1) := fun h => (Bool.false_ne_true h).elim
theorem addsS x0 x1 : Statement (.addsS x0 x1) := fun h => (Bool.false_ne_true h).elim
theorem addsZ x0 x1 : Statement (.addsZ x0 x1) := fun h => (Bool.false_ne_true h).elim
theorem subsS x0 x1 : Statement (.subsS x0 x1) := fun h => (Bool.false_ne_true h).elim
theorem subsZ x0 x1 : Statement (.subsZ x0 x1) := fun h => (Bool.false_ne_true h).elim
theorem minS x0 x1 : Statement (.minS x0 x1) := fun h => (Bool.false_ne_true h).elim
theorem minZ x0 x1 : Statement (.minZ x0 x1) := fun h => (Bool.false_ne_true h).elim
theorem maxS x0 x1 : Statement (.maxS x0 x1) := fun h => (Bool.false_ne_true h).elim
theorem maxZ x0 x1 : Statement (.maxZ x0 x1) := fun h => (Bool.false_ne_true h).elim
theorem iaShl x0 x1 : Statement (.iaShl x0 x1) := fun h => (Bool.false_ne_true h).elim
theorem shrZ x0 x1 : Statement (.shrZ x0 x1) := fun h => (Bool.false_ne_true h).elim
theorem shrS x0 x1 : Statement (.shrS x0 x1) := fun h => (Bool.false_ne_true h).elim
theorem andB128 x0 : Statement (.andB128 x0) := fun h => (Bool.false_ne_true h).elim
theorem orB128 x0 : Statement (.orB128 x0) := fun h => (Bool.false_ne_true h).elim
theorem xorB128 x0 : Statement (.xorB128 x0) := fun h => (Bool.false_ne_true h).elim
theorem andnB128 x0 : Statement (.andnB128 x0) := fun h => (Bool.false_ne_true h).elim
theorem notB128 x0 : Statement (.notB128 x0) := fun h => (Bool.false_ne_true h).elim
theorem movB128 x0 : Statement (.movB128 x0) := fun h => (Bool.false_ne_true h).elim
theorem addS64 x0 : Statement (.addS64 x0) := fun h => (Bool.false_ne_true h).elim
theorem subS64 x0 : Statement (.subS64 x0) := fun h => (Bool.false_ne_true h).elim
theorem ibMul x0 : Statement (.ibMul x0) := fun h => (Bool.false_ne_true h).elim
theorem mulwS x0 : Statement (.mulwS x0) := fun h => (Bool.false_ne_true h).elim
theorem mulwZ x0 : Statement (.mulwZ x0) := fun h => (Bool.false_ne_true h).elim
theorem zipl x0 : Statement (.zipl x0) := fun h => (Bool.false_ne_true h).elim
theorem ziph x0 : Statement (.ziph x0) := fun h => (Bool.false_ne_true h).elim
theorem fma x0 : Statement (.fma x0) := fun h => (Bool.false_ne_true h).elim
theorem fms x0 : Statement (.fms x0) := fun h => (Bool.false_ne_true h).elim
theorem fnma x0 : Statement (.fnma x0) := fun h => (Bool.false_ne_true h).elim
theorem fnms x0 : Statement (.fnms x0) := fun h => (Bool.false_ne_true h).elim
theorem fmAdd x0 : Statement (.fmAdd x0) := fun h => (Bool.false_ne_true h).elim
theorem fmSub x0 : Statement (.fmSub x0) := fun h => (Bool.false_ne_true h).elim
theorem fmMul x0 : Statement (.fmMul x0) := fun h => (Bool.false_ne_true h).elim
theorem fmMin x0 : Statement (.fmMin x0) := fun h => (Bool.false_ne_true h).elim
theorem fmMax x0 : Statement (.fmMax x0) := fun h => (Bool.false_ne_true h).elim
theorem fmAbs x0 : Statement (.fmAbs x0) := fun h => (Bool.false_ne_true h).elim
theorem fmNeg x0 : Statement (.fmNeg x0) := fun h => (Bool.false_ne_true h).elim
theorem cvtSr x0 : Statement (.cvtSr x0) := fun h => (Bool.false_ne_true h).elim
theorem cmpEq x0 : Statement (.cmpEq x0) := fun h => (Bool.false_ne_true h).elim
theorem cmpNe x0 : Statement (.cmpNe x0) := fun h => (Bool.false_ne_true h).elim
theorem cmpLt x0 : Statement (.cmpLt x0) := fun h => (Bool.false_ne_true h).elim
theorem cmpLe x0 : Statement (.cmpLe x0) := fun h => (Bool.false_ne_true h).elim
theorem lampBundle x0 x1 : Statement (.lampBundle x0 x1) := fun _ => rfl
theorem freezeRelease x0 : Statement (.freezeRelease x0) := fun _ => rfl
theorem resultDelivery x0 x1 : Statement (.resultDelivery x0 x1) := fun _ => rfl
theorem flashDelivery x0 : Statement (.flashDelivery x0) := fun _ => rfl
theorem lstartFirstBundle x0 : Statement (.lstartFirstBundle x0) := fun _ => rfl
theorem requestGrant x0 : Statement (.requestGrant x0) := fun _ => rfl
theorem linkStallRelease x0 x1 : Statement (.linkStallRelease x0 x1) := fun _ => rfl
theorem copyCommandStart x0 : Statement (.copyCommandStart x0) := fun _ => rfl
theorem copyComplete x0 : Statement (.copyComplete x0) := fun _ => rfl
theorem duplexRollback x0 : Statement (.duplexRollback x0) := fun _ => rfl
theorem sendStart x0 x1 : Statement (.sendStart x0 x1) := fun _ => rfl
theorem receivePost x0 x1 : Statement (.receivePost x0 x1) := fun _ => rfl
theorem eager x0 x1 : Statement (.eager x0 x1) := fun _ => rfl
theorem rts x0 x1 : Statement (.rts x0 x1) := fun _ => rfl
theorem cts x0 x1 : Statement (.cts x0 x1) := fun _ => rfl
theorem data x0 x1 : Statement (.data x0 x1) := fun _ => rfl
theorem ack x0 x1 : Statement (.ack x0 x1) := fun _ => rfl
theorem stub x0 x1 : Statement (.stub x0 x1) := fun _ => rfl
theorem nack x0 x1 : Statement (.nack x0 x1) := fun _ => rfl
theorem nackRetry x0 x1 : Statement (.nackRetry x0 x1) := fun _ => rfl
theorem abort x0 x1 : Statement (.abort x0 x1) := fun _ => rfl
theorem refuse x0 x1 : Statement (.refuse x0 x1) := fun _ => rfl
theorem orderedComplete x0 x1 : Statement (.orderedComplete x0 x1) := fun _ => rfl
theorem streamRetire x0 x1 x2 : Statement (.streamRetire x0 x1 x2) := fun _ => rfl
theorem replayPair x0 : Statement (.replayPair x0) := fun _ => rfl
theorem arbiterGrant x0 : Statement (.arbiterGrant x0) := fun _ => rfl
theorem loadComplete x0 x1 : Statement (.loadComplete x0 x1) := fun _ => rfl
theorem computeStart x0 x1 : Statement (.computeStart x0 x1) := fun _ => rfl
theorem blockStep x0 : Statement (.blockStep x0) := fun _ => rfl
theorem bankCommandAccept x0 x1 : Statement (.bankCommandAccept x0 x1) := fun _ => rfl
theorem rowOperation x0 : Statement (.rowOperation x0) := fun _ => rfl
theorem cellForward x0 x1 : Statement (.cellForward x0 x1) := fun _ => rfl
theorem creditReturn x0 x1 : Statement (.creditReturn x0 x1) := fun _ => rfl
theorem promotion x0 x1 x2 : Statement (.promotion x0 x1 x2) := fun _ => rfl
theorem escape x0 x1 x2 : Statement (.escape x0 x1 x2) := fun _ => rfl
theorem beaconWindow x0 : Statement (.beaconWindow x0) := fun _ => rfl
theorem barCommit x0 : Statement (.barCommit x0) := fun _ => rfl
theorem barRelease x0 : Statement (.barRelease x0) := fun _ => rfl
theorem domainBreak x0 : Statement (.domainBreak x0) := fun _ => rfl
theorem timeoutComplete x0 : Statement (.timeoutComplete x0) := fun _ => rfl
theorem routerFailure x0 : Statement (.routerFailure x0) := fun _ => rfl
theorem flit x0 x1 x2 : Statement (.flit x0 x1 x2) := fun _ => rfl
theorem replayRequest x0 x1 : Statement (.replayRequest x0 x1) := fun _ => rfl
theorem linkAck x0 x1 : Statement (.linkAck x0 x1) := fun _ => rfl
theorem linkAckTimer x0 x1 : Statement (.linkAckTimer x0 x1) := fun _ => rfl
theorem linkCredit x0 x1 x2 : Statement (.linkCredit x0 x1 x2) := fun _ => rfl
theorem turnService x0 : Statement (.turnService x0) := fun _ => rfl
theorem deadTimeEnd x0 : Statement (.deadTimeEnd x0) := fun _ => rfl
theorem read x0 : Statement (.read x0) := fun _ => rfl
theorem write x0 : Statement (.write x0) := fun _ => rfl
theorem gather x0 : Statement (.gather x0) := fun _ => rfl
theorem reduce x0 : Statement (.reduce x0) := fun _ => rfl
theorem convert x0 : Statement (.convert x0) := fun _ => rfl
theorem serverDispatch x0 : Statement (.serverDispatch x0) := fun _ => rfl
theorem winsetComplete x0 : Statement (.winsetComplete x0) := fun _ => rfl
theorem windowCommit x0 : Statement (.windowCommit x0) := fun _ => rfl
theorem generationAdvance x0 : Statement (.generationAdvance x0) := fun _ => rfl
theorem oldTableRelease x0 : Statement (.oldTableRelease x0) := fun _ => rfl
theorem load x0 x1 x2 x3 : Statement (.load x0 x1 x2 x3) := fun _ => rfl
theorem resume x0 x1 x2 : Statement (.resume x0 x1 x2) := fun _ => rfl
theorem offline x0 x1 x2 x3 : Statement (.offline x0 x1 x2 x3) := fun _ => rfl
theorem imageForward x0 : Statement (.imageForward x0) := fun _ => rfl
theorem keeperStart x0 : Statement (.keeperStart x0) := fun _ => rfl
theorem doneWord x0 x1 : Statement (.doneWord x0 x1) := fun _ => rfl
theorem dieFault x0 : Statement (.dieFault x0) := fun _ => rfl
theorem illegal x0 : Statement (.illegal x0) := fun _ => rfl
theorem nop : Statement .nop := fun _ => rfl
theorem tret : Statement .tret := fun _ => rfl
theorem ckpt : Statement .ckpt := fun _ => rfl
theorem dhalt : Statement .dhalt := fun _ => rfl
theorem lswap : Statement .lswap := fun _ => rfl
theorem popcB32 : Statement .popcB32 := fun h => (Bool.false_ne_true h).elim
theorem permB8 : Statement .permB8 := fun h => (Bool.false_ne_true h).elim
theorem permB32 : Statement .permB32 := fun h => (Bool.false_ne_true h).elim
theorem bcastB32 : Statement .bcastB32 := fun h => (Bool.false_ne_true h).elim
theorem rdflag : Statement .rdflag := fun h => (Bool.false_ne_true h).elim
theorem wrflag : Statement .wrflag := fun h => (Bool.false_ne_true h).elim
theorem rdmode : Statement .rdmode := fun h => (Bool.false_ne_true h).elim
theorem wrmode : Statement .wrmode := fun h => (Bool.false_ne_true h).elim
theorem rcp : Statement .rcp := fun h => (Bool.false_ne_true h).elim
theorem sqrt : Statement .sqrt := fun h => (Bool.false_ne_true h).elim
theorem rsqrt : Statement .rsqrt := fun h => (Bool.false_ne_true h).elim
theorem exp2 : Statement .exp2 := fun h => (Bool.false_ne_true h).elim
theorem log2 : Statement .log2 := fun h => (Bool.false_ne_true h).elim
theorem cvtBf16 : Statement .cvtBf16 := fun h => (Bool.false_ne_true h).elim
theorem cvtF16 : Statement .cvtF16 := fun h => (Bool.false_ne_true h).elim
theorem cvtE4m3 : Statement .cvtE4m3 := fun h => (Bool.false_ne_true h).elim
theorem cvtE5m2 : Statement .cvtE5m2 := fun h => (Bool.false_ne_true h).elim
theorem cvtE2m1 : Statement .cvtE2m1 := fun h => (Bool.false_ne_true h).elim
theorem cvtE4m3Bf16 : Statement .cvtE4m3Bf16 := fun h => (Bool.false_ne_true h).elim
theorem cvtE5m2Bf16 : Statement .cvtE5m2Bf16 := fun h => (Bool.false_ne_true h).elim
theorem cvtF16Bf16 : Statement .cvtF16Bf16 := fun h => (Bool.false_ne_true h).elim
theorem cvtS32 : Statement .cvtS32 := fun h => (Bool.false_ne_true h).elim
theorem cvtF32S32 : Statement .cvtF32S32 := fun h => (Bool.false_ne_true h).elim
theorem cvtS8S32 : Statement .cvtS8S32 := fun h => (Bool.false_ne_true h).elim
theorem cvtS16S32 : Statement .cvtS16S32 := fun h => (Bool.false_ne_true h).elim
theorem cvtS4S8 : Statement .cvtS4S8 := fun h => (Bool.false_ne_true h).elim
theorem cvtZ8S32 : Statement .cvtZ8S32 := fun h => (Bool.false_ne_true h).elim
theorem cvtF32Bf16 : Statement .cvtF32Bf16 := fun h => (Bool.false_ne_true h).elim
theorem cvtF32F16 : Statement .cvtF32F16 := fun h => (Bool.false_ne_true h).elim
theorem cvtF32E4m3 : Statement .cvtF32E4m3 := fun h => (Bool.false_ne_true h).elim
theorem cvtF32E5m2 : Statement .cvtF32E5m2 := fun h => (Bool.false_ne_true h).elim
theorem cvtF32E2m1 : Statement .cvtF32E2m1 := fun h => (Bool.false_ne_true h).elim
theorem cvtBf16E4m3 : Statement .cvtBf16E4m3 := fun h => (Bool.false_ne_true h).elim
theorem cvtBf16E5m2 : Statement .cvtBf16E5m2 := fun h => (Bool.false_ne_true h).elim
theorem cvtBf16E2m1 : Statement .cvtBf16E2m1 := fun h => (Bool.false_ne_true h).elim
theorem cvtS32S8 : Statement .cvtS32S8 := fun h => (Bool.false_ne_true h).elim
theorem cvtS32Z8 : Statement .cvtS32Z8 := fun h => (Bool.false_ne_true h).elim
theorem cvtS32S16 : Statement .cvtS32S16 := fun h => (Bool.false_ne_true h).elim
theorem cvtS8S4 : Statement .cvtS8S4 := fun h => (Bool.false_ne_true h).elim
theorem cvtF32Mxi8 : Statement .cvtF32Mxi8 := fun h => (Bool.false_ne_true h).elim
theorem px8E4m3 : Statement .px8E4m3 := fun h => (Bool.false_ne_true h).elim
theorem px8Bf16 : Statement .px8Bf16 := fun h => (Bool.false_ne_true h).elim
theorem planePack : Statement .planePack := fun h => (Bool.false_ne_true h).elim
theorem planeUnpack : Statement .planeUnpack := fun h => (Bool.false_ne_true h).elim
theorem rdrng : Statement .rdrng := fun h => (Bool.false_ne_true h).elim
theorem lsLd : Statement .lsLd := fun h => (Bool.false_ne_true h).elim
theorem lsLdSk : Statement .lsLdSk := fun h => (Bool.false_ne_true h).elim
theorem lsSt : Statement .lsSt := fun h => (Bool.false_ne_true h).elim
theorem lsStSk : Statement .lsStSk := fun h => (Bool.false_ne_true h).elim
theorem ldB32 : Statement .ldB32 := fun h => (Bool.false_ne_true h).elim
theorem stB32 : Statement .stB32 := fun h => (Bool.false_ne_true h).elim
theorem ldgB32 : Statement .ldgB32 := fun h => (Bool.false_ne_true h).elim
theorem stgB32 : Statement .stgB32 := fun h => (Bool.false_ne_true h).elim
theorem ldb : Statement .ldb := fun h => (Bool.false_ne_true h).elim
theorem stb : Statement .stb := fun h => (Bool.false_ne_true h).elim
theorem ldacc : Statement .ldacc := fun h => (Bool.false_ne_true h).elim
theorem ldaccCol : Statement .ldaccCol := fun h => (Bool.false_ne_true h).elim
theorem stacc : Statement .stacc := fun h => (Bool.false_ne_true h).elim
theorem atomAddF32 : Statement .atomAddF32 := fun h => (Bool.false_ne_true h).elim
theorem atomAddBf16 : Statement .atomAddBf16 := fun h => (Bool.false_ne_true h).elim
theorem atomAddS32 : Statement .atomAddS32 := fun h => (Bool.false_ne_true h).elim
theorem anyB32 : Statement .anyB32 := fun h => (Bool.false_ne_true h).elim
theorem allB32 : Statement .allB32 := fun h => (Bool.false_ne_true h).elim
theorem selB128 : Statement .selB128 := fun h => (Bool.false_ne_true h).elim
theorem pand : Statement .pand := fun h => (Bool.false_ne_true h).elim
theorem por : Statement .por := fun h => (Bool.false_ne_true h).elim
theorem pxor : Statement .pxor := fun h => (Bool.false_ne_true h).elim
theorem pnot : Statement .pnot := fun h => (Bool.false_ne_true h).elim
theorem maskB32 : Statement .maskB32 := fun h => (Bool.false_ne_true h).elim
theorem maskB16 : Statement .maskB16 := fun h => (Bool.false_ne_true h).elim
theorem maskB8 : Statement .maskB8 := fun h => (Bool.false_ne_true h).elim
theorem fetch : Statement .fetch := fun h => (Bool.false_ne_true h).elim
theorem next : Statement .next := fun h => (Bool.false_ne_true h).elim
theorem jump : Statement .jump := fun h => (Bool.false_ne_true h).elim
theorem stop : Statement .stop := fun h => (Bool.false_ne_true h).elim
theorem rep : Statement .rep := fun h => (Bool.false_ne_true h).elim
theorem fence : Statement .fence := fun h => (Bool.false_ne_true h).elim
theorem give : Statement .give := fun h => (Bool.false_ne_true h).elim
theorem pass : Statement .pass := fun h => (Bool.false_ne_true h).elim
theorem claim : Statement .claim := fun h => (Bool.false_ne_true h).elim
theorem take : Statement .take := fun h => (Bool.false_ne_true h).elim
theorem linkNext : Statement .linkNext := fun h => (Bool.false_ne_true h).elim
theorem linkPrev : Statement .linkPrev := fun h => (Bool.false_ne_true h).elim
theorem linkIdx : Statement .linkIdx := fun h => (Bool.false_ne_true h).elim
theorem signal : Statement .signal := fun h => (Bool.false_ne_true h).elim
theorem linkreg : Statement .linkreg := fun h => (Bool.false_ne_true h).elim
theorem keeperWaitComplete : Statement .keeperWaitComplete := fun _ => rfl
theorem takeTrap : Statement .takeTrap := fun _ => rfl
theorem dutyStep : Statement .dutyStep := fun _ => rfl
theorem packageReset : Statement .packageReset := fun _ => rfl
theorem fabricAdaptive : Statement .fabricAdaptive := fun _ => rfl
theorem fetchSramBound : Statement .fetchSramBound := fun _ => rfl
theorem bypass x0 : Statement (.bypass x0) := fun _ => rfl
theorem samplePreload x0 : Statement (.samplePreload x0) := fun _ => rfl
theorem extest x0 : Statement (.extest x0) := fun _ => rfl
theorem idcode x0 : Statement (.idcode x0) := fun _ => rfl
theorem timer x0 : Statement (.timer x0) := fun _ => rfl
theorem peerLeave x0 x1 : Statement (.peerLeave x0 x1) := fun _ => rfl
theorem linkTraining x0 x1 : Statement (.linkTraining x0 x1) := fun _ => rfl
theorem preempt x0 x1 x2 : Statement (.preempt x0 x1 x2) := fun _ => rfl
theorem kill x0 x1 x2 : Statement (.kill x0 x1 x2) := fun _ => rfl
theorem status x0 x1 x2 : Statement (.status x0 x1 x2) := fun _ => rfl
theorem dread x0 x1 x2 x3 x4 : Statement (.dread x0 x1 x2 x3 x4) := fun _ => rfl
theorem dwrite x0 x1 x2 x3 x4 : Statement (.dwrite x0 x1 x2 x3 x4) := fun _ => rfl
theorem dhaltRequest x0 x1 x2 x3 : Statement (.dhaltRequest x0 x1 x2 x3) := fun _ => rfl
theorem dresume x0 x1 x2 x3 : Statement (.dresume x0 x1 x2 x3) := fun _ => rfl
theorem tilemap x0 x1 x2 x3 : Statement (.tilemap x0 x1 x2 x3) := fun _ => rfl
theorem online x0 x1 x2 x3 : Statement (.online x0 x1 x2 x3) := fun _ => rfl
theorem engswap x0 : Statement (.engswap x0) := fun _ => rfl
theorem lscmd x0 : Statement (.lscmd x0) := fun _ => rfl
theorem powerSample x0 : Statement (.powerSample x0) := fun _ => rfl
theorem thermalLimit x0 x1 : Statement (.thermalLimit x0 x1) := fun _ => rfl
theorem frame x0 x1 : Statement (.frame x0 x1) := fun _ => rfl
theorem portConfiguration x0 x1 : Statement (.portConfiguration x0 x1) := fun _ => rfl
theorem spdmSession x0 x1 : Statement (.spdmSession x0 x1) := fun _ => rfl
theorem portRun x0 : Statement (.portRun x0) := fun _ => rfl
theorem portUnlock x0 : Statement (.portUnlock x0) := fun _ => rfl
theorem portLinkLoss x0 : Statement (.portLinkLoss x0) := fun _ => rfl
theorem firmwareImage x0 : Statement (.firmwareImage x0) := fun _ => rfl
theorem alarm x0 : Statement (.alarm x0) := fun _ => rfl
theorem events x0 : Statement (.events x0) := fun _ => rfl
theorem eccstat x0 : Statement (.eccstat x0) := fun _ => rfl
theorem checkmode x0 : Statement (.checkmode x0) := fun _ => rfl
theorem sramlim x0 : Statement (.sramlim x0) := fun _ => rfl
theorem uxpool x0 : Statement (.uxpool x0) := fun _ => rfl
theorem matchlog x0 : Statement (.matchlog x0) := fun _ => rfl
theorem eagermax x0 : Statement (.eagermax x0) := fun _ => rfl
theorem doma x0 x1 : Statement (.doma x0 x1) := fun _ => rfl
theorem controlRegisterWrite x0 x1 : Statement (.controlRegisterWrite x0 x1) := fun _ => rfl
theorem packetDeliveryResend x0 : Statement (.packetDeliveryResend x0) := fun _ => rfl
theorem drainDispatch x0 : Statement (.drainDispatch x0) := fun _ => rfl
theorem preemptPhaseTimeout x0 : Statement (.preemptPhaseTimeout x0) := fun _ => rfl
theorem keyUpdate x0 : Statement (.keyUpdate x0) := fun _ => rfl

end Sys2Proof.Laws.OneForm
end

