-- ==== Sys2Proof/Tests/Slice0.lean ====
section
/-! SUPPORT. Tests of one step each, and for each statement with hypotheses a state and operands that meet them. The
expected values are the spec's: its encodings, its worked examples, or a calculation by hand from a rule. -/

namespace Sys2Proof.Tests

open Sys2Proof Sys2Proof.Machine Sys2Proof.Claims

section
set_option Elab.async false

/-! ## Well-formed terms (R242, R248, R371, R446) -/

/-- A packet of a kind with `n` payload bytes. -/
def packet (kind : PktKind) (n : Nat) : Packet :=
  { kind := kind, src := 1, dst := 0, tag := 5, group := 0, seq := 0, len := n, job := 7, offset := 0, escape := false
    payload := List.replicate n 0, tree := [], ordered := false, detours := 0, via := none }

/-- A frame with counter 0 and a good tag. -/
def frameOf (p : Packet) : Frame := ⟨some p, 0, true, 0, 0, 0, []⟩

/-- A descriptor base above k28 has no room for four registers (R242). -/
theorem wf_descriptor_base : (Instr.recv 1 29 0 0).wf = false ∧ (Instr.recv 1 28 0 0).wf = true := by decide

/-- A rank between the server tiles and the lightship holds no message engine (R248). -/
theorem wf_unit : (Instr.rts 0x420 0).wf = false ∧ (Instr.rts 0x41F 0).wf = true ∧ (Instr.rts 0x800 0).wf = true := by
  decide

/-- A packet has at most 4,096 bytes of payload, and none unless it is EAGER or DATA (R371). -/
theorem wf_packet :
    (Instr.frame 0 (frameOf (packet .data 4097))).wf = false ∧ (Instr.frame 0 (frameOf (packet .data 4096))).wf = true ∧
    (Instr.frame 0 (frameOf (packet .ack 1))).wf = false ∧ (Instr.frame 0 (frameOf (packet .ack 0))).wf = true := by
  decide +kernel

/-- A package has four dies (R446). -/
theorem wf_die : (Instr.offline 0 0 0 4).wf = false ∧ (Instr.online 0 0 0 4).wf = false ∧ (Instr.offline 0 0 0 3).wf = true := by
  decide

/-- A register that has a row of its own is not written by the row of the others. -/
theorem wf_register : (Instr.controlRegisterWrite 0x005 0).wf = false ∧ (Instr.controlRegisterWrite 0x008 0).wf = true := by
  decide

/-! ## Decoding (R106, R107, R113, R117 to R124, R225 to R228) -/

/-- Each word decodes to its instruction, which encodes to it. -/
def bothWays (xs : List (W32 × Instr)) : Bool :=
  xs.all (fun p => (match decodeWord p.1 with | .ok i => i == p.2 | .error _ => false) && encode p.2 == some p.1)

/-- The opcodes of unit `u` that `xs` lists start their operations, and no other opcode of the unit starts one. -/
def opcodeMap (u : Nat) (xs : List (Nat × Instr)) : Bool :=
  (List.range 64).all (fun op =>
    let d := BitVec.ofNat 10 (0x200 + 64 * u + op)
    match xs.find? (fun p => p.1 == op) with
    | some p => decodeTrigger d == some p.2 && portOf p.2 == some d
    | none => decodeTrigger d == none)

/-- The words of R225 to R228 and the register arithmetic rows, field by field. -/
theorem decode_register_arithmetic :
    bothWays
      [((0x03355400 : W32), Instr.add 0x13 0xa 0x15), ((0x03355401 : W32), Instr.sub 0x13 0xa 0x15),
       ((0x03355402 : W32), Instr.and 0x13 0xa 0x15), ((0x03355403 : W32), Instr.or 0x13 0xa 0x15),
       ((0x03355404 : W32), Instr.xor 0x13 0xa 0x15), ((0x03355405 : W32), Instr.andn 0x13 0xa 0x15),
       ((0x03355406 : W32), Instr.shl 0x13 0xa 0x15), ((0x03355407 : W32), Instr.shr 0x13 0xa 0x15),
       ((0x03355408 : W32), Instr.sar 0x13 0xa 0x15), ((0x03355409 : W32), Instr.slt 0x13 0xa 0x15),
       ((0x0335540A : W32), Instr.sltu 0x13 0xa 0x15), ((0x0335540B : W32), Instr.min 0x13 0xa 0x15),
       ((0x0335540C : W32), Instr.max 0x13 0xa 0x15), ((0x0335540D : W32), Instr.minu 0x13 0xa 0x15),
       ((0x0335540E : W32), Instr.maxu 0x13 0xa 0x15), ((0x0335540F : W32), Instr.mul 0x13 0xa 0x15),
       ((0x03355410 : W32), Instr.mulh 0x13 0xa 0x15), ((0x03355411 : W32), Instr.mulhu 0x13 0xa 0x15),
       ((0x03355412 : W32), Instr.div 0x13 0xa 0x15), ((0x03355413 : W32), Instr.divu 0x13 0xa 0x15),
       ((0x03355414 : W32), Instr.rem 0x13 0xa 0x15), ((0x03355415 : W32), Instr.remu 0x13 0xa 0x15),
       ((0x03350016 : W32), Instr.popc 0x13 0xa), ((0x03350017 : W32), Instr.clz 0x13 0xa),
       ((0x03350018 : W32), Instr.ctz 0x13 0xa)] = true := by decide +kernel

/-- The words of R225 to R228 and the immediate arithmetic rows, field by field. -/
theorem decode_immediate_arithmetic :
    bothWays
      [((0x05355A3C : W32), Instr.addi 0x13 0xa 0x5a3c), ((0x07355A3C : W32), Instr.andi 0x13 0xa 0x5a3c),
       ((0x09355A3C : W32), Instr.ori 0x13 0xa 0x5a3c), ((0x0B355A3C : W32), Instr.xori 0x13 0xa 0x5a3c),
       ((0x0D355A3C : W32), Instr.slti 0x13 0xa 0x5a3c), ((0x0F355A3C : W32), Instr.sltiu 0x13 0xa 0x5a3c),
       ((0x1135002B : W32), Instr.shli 0x13 0xa 0x2b), ((0x1335002B : W32), Instr.shri 0x13 0xa 0x2b),
       ((0x1535002B : W32), Instr.sari 0x13 0xa 0x2b), ((0x17355A3C : W32), Instr.addhi 0x13 0xa 0x5a3c)] = true := by decide +kernel

/-- The words of R225 to R228 and the load store rows, field by field. -/
theorem decode_load_store :
    bothWays
      [((0x21355A3C : W32), Instr.lb 0x13 0xa 0x5a3c), ((0x23355A3C : W32), Instr.lbu 0x13 0xa 0x5a3c),
       ((0x25355A3C : W32), Instr.lh 0x13 0xa 0x5a3c), ((0x27355A3C : W32), Instr.lhu 0x13 0xa 0x5a3c),
       ((0x29355A3C : W32), Instr.lw 0x13 0xa 0x5a3c), ((0x2B355A3C : W32), Instr.lwu 0x13 0xa 0x5a3c),
       ((0x2D355A3C : W32), Instr.ld 0x13 0xa 0x5a3c), ((0x2F355A3C : W32), Instr.ldSk 0x13 0xa 0x5a3c),
       ((0x31355A3C : W32), Instr.sb 0x13 0xa 0x5a3c), ((0x33355A3C : W32), Instr.sh 0x13 0xa 0x5a3c),
       ((0x35355A3C : W32), Instr.sw 0x13 0xa 0x5a3c), ((0x37355A3C : W32), Instr.sd 0x13 0xa 0x5a3c),
       ((0x39355A3C : W32), Instr.sdSk 0x13 0xa 0x5a3c)] = true := by decide +kernel

/-- The words of R225 to R228 and the branch jump rows, field by field. -/
theorem decode_branch_jump :
    bothWays
      [((0x40AADA3C : W32), Instr.beq 0xa 0x15 0x5a3c), ((0x42AADA3C : W32), Instr.bne 0xa 0x15 0x5a3c),
       ((0x44AADA3C : W32), Instr.blt 0xa 0x15 0x5a3c), ((0x46AADA3C : W32), Instr.bge 0xa 0x15 0x5a3c),
       ((0x48AADA3C : W32), Instr.bltu 0xa 0x15 0x5a3c), ((0x4AAADA3C : W32), Instr.bgeu 0xa 0x15 0x5a3c),
       ((0x4D55AA33 : W32), Instr.j 0x155aa33), ((0x4F55AA33 : W32), Instr.jal 0x155aa33),
       ((0x51355A3C : W32), Instr.jalr 0x13 0xa 0x5a3c)] = true := by decide +kernel

/-- The words of R225 to R228 and the system control rows, field by field. -/
theorem decode_system_control :
    bothWays
      [((0x61310500 : W32), Instr.crr 0x13 0x105), ((0x61310501 : W32), Instr.crw 0x13 0x105),
       ((0x61310502 : W32), Instr.crs 0x13 0x105), ((0x61310503 : W32), Instr.crc 0x13 0x105),
       ((0x62000000 : W32), Instr.nop), ((0x62000001 : W32), Instr.tret), ((0x62000002 : W32), Instr.ckpt),
       ((0x62000003 : W32), Instr.dhalt), ((0x63350004 : W32), Instr.waitev 0x13 0xa),
       ((0x62050005 : W32), Instr.twait 0xa), ((0x63350006 : W32), Instr.twaita 0x13 0xa),
       ((0x62050007 : W32), Instr.done 0xa)] = true := by decide +kernel

/-- The words of R225 to R228 and the beacon rows, field by field. -/
theorem decode_beacon :
    bothWays
      [((0x71355402 : W32), Instr.ann 0x13 0xa 0x15 0x2), ((0x71305406 : W32), Instr.annL 0x13 0x15 0x2),
       ((0x73355402 : W32), Instr.voteAnd 0x13 0xa 0x15 0x2), ((0x73355406 : W32), Instr.voteOr 0x13 0xa 0x15 0x2),
       ((0x7335540A : W32), Instr.voteMax 0x13 0xa 0x15 0x2), ((0x7335540E : W32), Instr.voteMin 0x13 0xa 0x15 0x2),
       ((0x73355412 : W32), Instr.voteMaxs 0x13 0xa 0x15 0x2), ((0x73355416 : W32), Instr.voteMins 0x13 0xa 0x15 0x2),
       ((0x755D19DA : W32), Instr.scan 0x2b 0x14 0x19 0x36 0x2), ((0x77350002 : W32), Instr.bar 0x13 0xa 0x2),
       ((0x79350002 : W32), Instr.barx 0x13 0xa 0x2)] = true := by decide +kernel

/-- The words of R225 to R228 and the copy rows, field by field. -/
theorem decode_copy :
    bothWays
      [((0x815D19DB : W32), Instr.cpMove 0x2b 0x14 0x19 0x36 0x1 0x1),
       ((0x835D19D8 : W32), Instr.cpGather 0x2b 0x14 0x19 0x36),
       ((0x855D19D8 : W32), Instr.cpScatter 0x2b 0x14 0x19 0x36),
       ((0x875D19D8 : W32), Instr.cpPlane 0x2b 0x14 0x19 0x36),
       ((0x895D19D8 : W32), Instr.cpUnplane 0x2b 0x14 0x19 0x36),
       ((0x8B5D19D8 : W32), Instr.cpPx8Enc 0x2b 0x14 0x19 0x36),
       ((0x8B5D19D9 : W32), Instr.cpPx8Dec 0x2b 0x14 0x19 0x36),
       ((0x8B5D19DA : W32), Instr.cpPx8Bf16 0x2b 0x14 0x19 0x36),
       ((0x8B5D19DB : W32), Instr.cpPx8Encbf 0x2b 0x14 0x19 0x36),
       ((0x8D5D19D8 : W32), Instr.cpCvt 0x2b 0x14 0x19 0x36),
       ((0x8F5D19D9 : W32), Instr.cpAcc 0x2b 0x14 0x19 0x36 0x1),
       ((0x915D19D9 : W32), Instr.cpTopk 0x2b 0x14 0x19 0x36 0x1),
       ((0x935D19D8 : W32), Instr.cpFill 0x2b 0x14 0x19 0x36)] = true := by decide +kernel

/-- The words of R225 to R228 and the link window rows, field by field. -/
theorem decode_link_window :
    bothWays
      [((0x95350000 : W32), Instr.turn 0x13 0xa), ((0x95350001 : W32), Instr.turnW 0x13 0xa),
       ((0x97350000 : W32), Instr.turnq 0x13 0xa), ((0x97350001 : W32), Instr.turnqTx 0x13 0xa),
       ((0x97350002 : W32), Instr.turnqRx 0x13 0xa), ((0x995D19D8 : W32), Instr.winset 0x2b 0x14 0x19 0x36),
       ((0x9B300000 : W32), Instr.wincommit 0x13), ((0x9D350000 : W32), Instr.winq 0x13 0xa),
       ((0x9D350001 : W32), Instr.winqSt 0x13 0xa), ((0x9D300002 : W32), Instr.winqGen 0x13),
       ((0x9D350003 : W32), Instr.winqAllot 0x13 0xa)] = true := by decide +kernel

/-- The words of R225 to R228 and the lamp control rows, field by field. -/
theorem decode_lamp_control :
    bothWays
      [((0xA0055400 : W32), Instr.flash 0xa 0x15), ((0xA2055400 : W32), Instr.lstart 0xa 0x15),
       ((0xA4050000 : W32), Instr.lstop 0xa), ((0xA7350000 : W32), Instr.ljoin 0x13 0xa),
       ((0xA8055400 : W32), Instr.lgroup 0xa 0x15), ((0xAB350000 : W32), Instr.lstate 0x13 0xa),
       ((0xAC055400 : W32), Instr.lwrite 0xa 0x15), ((0xAE000000 : W32), Instr.lswap),
       ((0xB15D19D8 : W32), Instr.lspillOut 0x2b 0x14 0x19 0x36),
       ((0xB15D19D9 : W32), Instr.lspillIn 0x2b 0x14 0x19 0x36)] = true := by decide +kernel

/-- The words of R225 to R228 and the message rows, field by field. -/
theorem decode_message :
    bothWays
      [((0xC15D19D8 : W32), Instr.send 0x2b 0x14 0x19 0x36), ((0xC35D19D8 : W32), Instr.ssend 0x2b 0x14 0x19 0x36),
       ((0xC55D19D8 : W32), Instr.sendTree 0x2b 0x14 0x19 0x36), ((0xC75D19D8 : W32), Instr.recv 0x2b 0x14 0x19 0x36),
       ((0xC95D19D8 : W32), Instr.recvAdd 0x2b 0x14 0x19 0x36),
       ((0xCB5D19D8 : W32), Instr.recvPx8 0x2b 0x14 0x19 0x36), ((0xCD355400 : W32), Instr.probe 0x13 0xa 0x15),
       ((0xCD355401 : W32), Instr.probeLen 0x13 0xa 0x15), ((0xCF350000 : W32), Instr.cancel 0x13 0xa),
       ((0xD1350000 : W32), Instr.mwait 0x13 0xa), ((0xD3355400 : W32), Instr.mtest 0x13 0xa 0x15),
       ((0xD5350000 : W32), Instr.mstat 0x13 0xa), ((0xD6050000 : W32), Instr.mquiesce 0xa)] = true := by decide +kernel

/-- The words of R225 to R228 and the lens rows, field by field. -/
theorem decode_lens :
    bothWays
      [((0xE15D19D8 : W32), Instr.lmm 0x2b 0x14 0x19 0x36), ((0xE35D19D8 : W32), Instr.lmms 0x2b 0x14 0x19 0x36),
       ((0xE55D19D8 : W32), Instr.lrank 0x2b 0x14 0x19 0x36), ((0xE75D19D8 : W32), Instr.accLoad 0x2b 0x14 0x19 0x36),
       ((0xE95D19D8 : W32), Instr.accClr 0x2b 0x14 0x19 0x36),
       ((0xEB5D19D8 : W32), Instr.accMerge 0x2b 0x14 0x19 0x36),
       ((0xED5D19D8 : W32), Instr.drain 0x2b 0x14 0x19 0x36), ((0xEF5D19D8 : W32), Instr.accFree 0x2b 0x14 0x19 0x36),
       ((0xF15D19D8 : W32), Instr.accOwn 0x2b 0x14 0x19 0x36), ((0xF3350000 : W32), Instr.accAlloc 0x13 0xa),
       ((0xF5350000 : W32), Instr.lqueryStatus 0x13 0xa), ((0xF5350001 : W32), Instr.lqueryFault 0x13 0xa),
       ((0xF5350002 : W32), Instr.lqueryBank 0x13 0xa)] = true := by decide +kernel

/-- The opcode map of `ia` (R117 to R124): what it lists decodes, and nothing else does. -/
theorem triggers_ia :
    opcodeMap 0
      [(0x00, .iaAdd .ia .w8), (0x01, .iaAdd .ia .w16), (0x02, .iaAdd .ia .w32), (0x03, .iaSub .ia .w8),
       (0x04, .iaSub .ia .w16), (0x05, .iaSub .ia .w32), (0x06, .addsS .ia .w8), (0x07, .addsS .ia .w16),
       (0x08, .addsS .ia .w32), (0x09, .addsZ .ia .w8), (0x0A, .addsZ .ia .w16), (0x0B, .addsZ .ia .w32),
       (0x0C, .subsS .ia .w8), (0x0D, .subsS .ia .w16), (0x0E, .subsS .ia .w32), (0x0F, .subsZ .ia .w8),
       (0x10, .subsZ .ia .w16), (0x11, .subsZ .ia .w32), (0x12, .minS .ia .w8), (0x13, .minS .ia .w16),
       (0x14, .minS .ia .w32), (0x15, .minZ .ia .w8), (0x16, .minZ .ia .w16), (0x17, .minZ .ia .w32),
       (0x18, .maxS .ia .w8), (0x19, .maxS .ia .w16), (0x1A, .maxS .ia .w32), (0x1B, .maxZ .ia .w8),
       (0x1C, .maxZ .ia .w16), (0x1D, .maxZ .ia .w32), (0x1E, .iaShl .ia .w8), (0x1F, .iaShl .ia .w16),
       (0x20, .iaShl .ia .w32), (0x21, .shrZ .ia .w8), (0x22, .shrZ .ia .w16), (0x23, .shrZ .ia .w32),
       (0x24, .shrS .ia .w8), (0x25, .shrS .ia .w16), (0x26, .shrS .ia .w32), (0x27, .andB128 .ia),
       (0x28, .orB128 .ia), (0x29, .xorB128 .ia), (0x2A, .andnB128 .ia), (0x2B, .notB128 .ia), (0x2C, .movB128 .ia),
       (0x2D, .addS64 .ia), (0x2E, .subS64 .ia)] = true := by decide +kernel

/-- The opcode map of `ib` (R117 to R124): what it lists decodes, and nothing else does. -/
theorem triggers_ib :
    opcodeMap 1
      [(0x00, .iaAdd .ib .w8), (0x01, .iaAdd .ib .w16), (0x02, .iaAdd .ib .w32), (0x03, .iaSub .ib .w8),
       (0x04, .iaSub .ib .w16), (0x05, .iaSub .ib .w32), (0x06, .addsS .ib .w8), (0x07, .addsS .ib .w16),
       (0x08, .addsS .ib .w32), (0x09, .addsZ .ib .w8), (0x0A, .addsZ .ib .w16), (0x0B, .addsZ .ib .w32),
       (0x0C, .subsS .ib .w8), (0x0D, .subsS .ib .w16), (0x0E, .subsS .ib .w32), (0x0F, .subsZ .ib .w8),
       (0x10, .subsZ .ib .w16), (0x11, .subsZ .ib .w32), (0x12, .minS .ib .w8), (0x13, .minS .ib .w16),
       (0x14, .minS .ib .w32), (0x15, .minZ .ib .w8), (0x16, .minZ .ib .w16), (0x17, .minZ .ib .w32),
       (0x18, .maxS .ib .w8), (0x19, .maxS .ib .w16), (0x1A, .maxS .ib .w32), (0x1B, .maxZ .ib .w8),
       (0x1C, .maxZ .ib .w16), (0x1D, .maxZ .ib .w32), (0x1E, .iaShl .ib .w8), (0x1F, .iaShl .ib .w16),
       (0x20, .iaShl .ib .w32), (0x21, .shrZ .ib .w8), (0x22, .shrZ .ib .w16), (0x23, .shrZ .ib .w32),
       (0x24, .shrS .ib .w8), (0x25, .shrS .ib .w16), (0x26, .shrS .ib .w32), (0x27, .andB128 .ib),
       (0x28, .orB128 .ib), (0x29, .xorB128 .ib), (0x2A, .andnB128 .ib), (0x2B, .notB128 .ib), (0x2C, .movB128 .ib),
       (0x2D, .addS64 .ib), (0x2E, .subS64 .ib), (0x2F, .ibMul .w8), (0x30, .ibMul .w16), (0x31, .ibMul .w32),
       (0x32, .mulwS .w8), (0x33, .mulwZ .w8), (0x34, .mulwS .w16), (0x35, .mulwZ .w16), (0x36, .mulwS .w32),
       (0x37, .mulwZ .w32), (0x38, .popcB32), (0x39, .permB8), (0x3A, .permB32), (0x3B, .bcastB32),
       (0x3C, .zipl false), (0x3D, .ziph false), (0x3E, .zipl true), (0x3F, .ziph true)] = true := by decide +kernel

/-- The opcode map of `fm` (R117 to R124): what it lists decodes, and nothing else does. -/
theorem triggers_fm :
    opcodeMap 2
      [(0x00, .fma .f32), (0x01, .fma .f16), (0x02, .fma .bf16), (0x04, .fms .f32), (0x05, .fms .f16),
       (0x06, .fms .bf16), (0x08, .fnma .f32), (0x09, .fnma .f16), (0x0A, .fnma .bf16), (0x0C, .fnms .f32),
       (0x0D, .fnms .f16), (0x0E, .fnms .bf16), (0x10, .fmAdd .f32), (0x11, .fmAdd .f16), (0x12, .fmAdd .bf16),
       (0x14, .fmSub .f32), (0x15, .fmSub .f16), (0x16, .fmSub .bf16), (0x18, .fmMul .f32), (0x19, .fmMul .f16),
       (0x1A, .fmMul .bf16), (0x1C, .fmMin .f32), (0x1D, .fmMin .f16), (0x1E, .fmMin .bf16), (0x20, .fmMax .f32),
       (0x21, .fmMax .f16), (0x22, .fmMax .bf16), (0x24, .fmAbs .f32), (0x25, .fmAbs .f16), (0x26, .fmAbs .bf16),
       (0x28, .fmNeg .f32), (0x29, .fmNeg .f16), (0x2A, .fmNeg .bf16), (0x3C, .rdflag), (0x3D, .wrflag),
       (0x3E, .rdmode), (0x3F, .wrmode)] = true := by decide +kernel

/-- The opcode map of `sf` (R117 to R124): what it lists decodes, and nothing else does. -/
theorem triggers_sf :
    opcodeMap 3
      [(0x00, .rcp), (0x01, .sqrt), (0x02, .rsqrt), (0x03, .exp2), (0x04, .log2)] = true := by decide +kernel

/-- The opcode map of `cv` (R117 to R124): what it lists decodes, and nothing else does. -/
theorem triggers_cv :
    opcodeMap 4
      [(0x00, .cvtBf16), (0x01, .cvtF16), (0x02, .cvtE4m3), (0x03, .cvtE5m2), (0x04, .cvtE2m1), (0x05, .cvtE4m3Bf16),
       (0x06, .cvtE5m2Bf16), (0x07, .cvtF16Bf16), (0x08, .cvtS32), (0x09, .cvtF32S32), (0x0A, .cvtS8S32),
       (0x0B, .cvtS16S32), (0x0C, .cvtS4S8), (0x0D, .cvtZ8S32), (0x10, .cvtSr .bf16), (0x11, .cvtSr .f16),
       (0x12, .cvtSr .e4m3), (0x13, .cvtSr .e5m2), (0x14, .cvtSr .e2m1), (0x15, .cvtSr .e4m3Bf16),
       (0x16, .cvtSr .e5m2Bf16), (0x17, .cvtSr .f16Bf16), (0x18, .cvtSr .s32), (0x19, .cvtSr .f32S32),
       (0x20, .cvtF32Bf16), (0x21, .cvtF32F16), (0x22, .cvtF32E4m3), (0x23, .cvtF32E5m2), (0x24, .cvtF32E2m1),
       (0x25, .cvtBf16E4m3), (0x26, .cvtBf16E5m2), (0x27, .cvtBf16E2m1), (0x28, .cvtS32S8), (0x29, .cvtS32Z8),
       (0x2A, .cvtS32S16), (0x2B, .cvtS8S4), (0x2C, .cvtF32Mxi8), (0x30, .px8E4m3), (0x31, .px8Bf16),
       (0x32, .planePack), (0x33, .planeUnpack), (0x34, .rdrng)] = true := by decide +kernel

/-- The opcode map of `ls` (R117 to R124): what it lists decodes, and nothing else does. -/
theorem triggers_ls :
    opcodeMap 5
      [(0x00, .lsLd), (0x01, .lsLdSk), (0x02, .lsSt), (0x03, .lsStSk), (0x04, .ldB32), (0x05, .stB32),
       (0x06, .ldgB32), (0x07, .stgB32), (0x08, .ldb), (0x09, .stb), (0x10, .ldacc), (0x11, .ldaccCol),
       (0x12, .stacc), (0x18, .atomAddF32), (0x19, .atomAddBf16), (0x1A, .atomAddS32)] = true := by decide +kernel

/-- The opcode map of `pr` (R117 to R124): what it lists decodes, and nothing else does. -/
theorem triggers_pr :
    opcodeMap 6
      [(0x00, .cmpEq .s8), (0x01, .cmpNe .s8), (0x02, .cmpLt .s8), (0x03, .cmpLe .s8), (0x04, .cmpEq .s16),
       (0x05, .cmpNe .s16), (0x06, .cmpLt .s16), (0x07, .cmpLe .s16), (0x08, .cmpEq .s32), (0x09, .cmpNe .s32),
       (0x0A, .cmpLt .s32), (0x0B, .cmpLe .s32), (0x0C, .cmpEq .z8), (0x0D, .cmpNe .z8), (0x0E, .cmpLt .z8),
       (0x0F, .cmpLe .z8), (0x10, .cmpEq .z16), (0x11, .cmpNe .z16), (0x12, .cmpLt .z16), (0x13, .cmpLe .z16),
       (0x14, .cmpEq .z32), (0x15, .cmpNe .z32), (0x16, .cmpLt .z32), (0x17, .cmpLe .z32), (0x18, .cmpEq .f32),
       (0x19, .cmpNe .f32), (0x1A, .cmpLt .f32), (0x1B, .cmpLe .f32), (0x1C, .cmpEq .f16), (0x1D, .cmpNe .f16),
       (0x1E, .cmpLt .f16), (0x1F, .cmpLe .f16), (0x20, .cmpEq .bf16), (0x21, .cmpNe .bf16), (0x22, .cmpLt .bf16),
       (0x23, .cmpLe .bf16), (0x24, .anyB32), (0x25, .allB32), (0x26, .selB128), (0x27, .pand), (0x28, .por),
       (0x29, .pxor), (0x2A, .pnot), (0x2B, .maskB32), (0x2C, .maskB16), (0x2D, .maskB8)] = true := by decide +kernel

/-- The opcode map of `ct` (R117 to R124): what it lists decodes, and nothing else does. -/
theorem triggers_ct :
    opcodeMap 7
      [(0x00, .fetch), (0x01, .next), (0x02, .jump), (0x03, .stop), (0x04, .rep), (0x05, .fence), (0x08, .give),
       (0x09, .pass), (0x0A, .claim), (0x0B, .take)] = true := by decide +kernel
/-- The destinations of `ct` that are no triggers (R113). -/
theorem destinations_ct :
    [(0x28, Instr.linkNext), (0x29, .linkPrev), (0x2A, .linkIdx), (0x2B, .signal), (0x2C, .linkreg)].all
      (fun p => sendOp p.1 == some p.2 && portOf p.2 == some (BitVec.ofNat 10 p.1)) = true := by decide

/-- The slots of the examples below R126 and R187: guard, source, destination. -/
theorem slots_of_the_examples :
    [((0x000448 : BitVec 24), Slot.mk 0b0000 0x001 0x048), (0x000849, ⟨0b0000, 0x002, 0x049⟩),
      (0x000E80, ⟨0b0000, 0x003, 0x280⟩), (0xB61C40, ⟨0b1011, 0x187, 0x040⟩), (0xB01202, ⟨0b1011, 0x004, 0x202⟩),
      (0x0403C3, ⟨0b0000, 0x100, 0x3C3⟩), (0x9403C2, ⟨0b1001, 0x100, 0x3C2⟩), (0x040BCA, ⟨0b0000, 0x102, 0x3CA⟩),
      (0x0427C9, ⟨0b0000, 0x109, 0x3C9⟩), (0x061FC4, ⟨0b0000, 0x187, 0x3C4⟩), (0x001740, ⟨0b0000, 0x005, 0x340⟩),
      (0x000454, ⟨0b0000, 0x001, 0x054⟩)].all (fun p => Slot.ofBits p.1 == p.2 && p.2.bits == p.1) = true ∧
    (Slot.ofBits 0x8003E8).isImm = true ∧ (Slot.ofBits 0x8003E8).payload = 1000 ∧
    (Slot.ofBits 0x801003).payload = 0x1003 := by decide +kernel

/-- Words with a bit in an unused field, an unassigned sub value and an unassigned opcode (R226, R228). -/
theorem illegal_words :
    decodeWord 0x00000000 = .error .unassignedOp ∧ decodeWord 0xFE000000 = .error .unassignedOp ∧
    decodeWord 0x02000019 = .error .unassignedSub ∧ decodeWord 0x02000416 = .error .unusedField ∧
    decodeWord 0x00FFFFFF = .error .unassignedOp :=
  ⟨rfl, rfl, rfl, rfl, rfl⟩

/-! ## States that meet the hypotheses of the statements -/

/-- The package at reset but for tile 0, whose keeper is in focus. -/
def tile0 (f : Tile → Tile) : State := modTile State.reset 0 f

/-- A tile whose keeper holds these registers. -/
def withK (xs : List (Nat × W64)) (t : Tile) : Tile :=
  { t with keeper := { t.keeper with k := xs.foldl (fun k p => vset k p.1 p.2) t.keeper.k } }

/-- A tile at station level. -/
def atSt (t : Tile) : Tile := { t with keeper := { t.keeper with station := true } }

/-- A tile in which token `n` is pending. -/
def pendingTok (n : Nat) (t : Tile) : Tile := { t with eng := { t.eng with tok := vset t.eng.tok n 1 } }

/-- A tile with lamp `l` changed. -/
def withLamp (l : Nat) (f : Lamp → Lamp) (t : Tile) : Tile := modLamp l f t

/-- Each access at the top of the job's SRAM, and one through the skew mapping that moves it. -/
theorem witness_LoadAndStoreResults :
    let s := tile0 (withK [(1, 0x1EFFF8)])
    let sk := tile0 (fun t => withK [(1, 0x400)] { t with ctrl := { t.ctrl with skewbase := 1, skewpitch := 0xF0000 } })
    (∀ p ∈ [((7 : BitVec 15), 1), (6, 2), (4, 4), (0, 8)], ∀ store : Bool,
      AccessOk s (kreg s 1 + p.1.signExtend 64).toNat p.2 store false) ∧
    (∀ store : Bool, AccessOk s (kreg s 1 + (0 : BitVec 15).signExtend 64).toNat 8 store true ∧
      AccessOk sk (kreg sk 1 + (8 : BitVec 15).signExtend 64).toNat 8 store true) ∧
    accessAt sk true 0x408 = 0x418 := by
  unfold AccessOk accessAt; decide +kernel

/-- Accesses just above the limit, below address 0, and inside but not aligned. -/
theorem witness_AccessFaultsTrap :
    let s := tile0 (withK [(1, 0x1EFFF8)])
    let ok (a : BitVec 5) (i : BitVec 15) (n : Nat) : Bool := inBounds (cur s) (cur s).keeper.station (kreg s a + i.signExtend 64).toNat n
    (∀ p ∈ [((8 : BitVec 15), 1), (7, 2), (5, 4), (1, 8)], ok 1 p.1 p.2 = false) ∧ ok 0 0x7FFF 1 = false ∧
    ∀ p ∈ [((5 : BitVec 15), 2), (3, 4), (0x7FFF, 8)],
      ok 1 p.1 p.2 = true ∧ (kreg s 1 + p.1.signExtend 64).toNat % p.2 ≠ 0 := by decide +kernel

/-- Registers on both sides of each condition, and both kinds of JALR target. -/
theorem witness_BranchAndJumpResults :
    let s := tile0 (withK [(1, BitVec.allOnes 64), (2, 1)])
    kreg s 1 = kreg s 1 ∧ kreg s 1 ≠ kreg s 2 ∧ (kreg s 1).toInt < (kreg s 2).toInt ∧ ¬ (kreg s 1).toNat < (kreg s 2).toNat ∧
    ¬ (kreg s 2).toInt < (kreg s 1).toInt ∧ (kreg s 2).toNat < (kreg s 1).toNat ∧
    (kreg s 2 + (3 : BitVec 15).signExtend 64).toNat % 4 = 0 ∧ (kreg s 2 + (1 : BitVec 15).signExtend 64).toNat % 4 ≠ 0 := by
  decide +kernel

/-- The leader of a duplex pair. -/
def paired (t : Tile) : Tile := { t with duplex := .leader }

/-- A single tile; a pair that is quiet; pairs with a lamp at work and with a token pending. -/
theorem witness_NopDhaltAndCkpt :
    let quiet (s : State) : Prop := (∀ l : Fin 16, ((cur s).act.lamps[l]).st = .stopped) ∧ ∀ n, n < 64 → tokSet (cur s) false n = true
    (cur State.reset).duplex = .solo ∧ (cur State.reset).keeper.debugHalt = false ∧
    (cur (tile0 paired)).duplex ≠ .solo ∧ (cur (tile0 paired)).keeper.station = false ∧ quiet (tile0 paired) ∧
    ¬ quiet (tile0 (fun t => paired (withLamp 15 (fun x => { x with st := .running }) t))) ∧
    ¬ quiet (tile0 (fun t => paired (pendingTok 63 t))) := by
  simp only []; decide +kernel

/-- A handler at job level, no handler there, and the station level. -/
theorem witness_TretReturns :
    let h := tile0 (fun t => { t with keeper := { t.keeper with inTrap := true } })
    (cur h).keeper.station = false ∧ (cur h).keeper.inTrap = true ∧ (cur State.reset).keeper.station = false ∧
    (cur State.reset).keeper.inTrap = false ∧ (cur (tile0 atSt)).keeper.station = true := by decide +kernel

/-- Masks that are empty, met and not met, for events and for tokens. -/
theorem witness_WaitInstructionsAndTokenView :
    let s := tile0 (fun t => withK [(1, 1), (2, 2), (3, 3)] (pendingTok 1 { t with ctrl := { t.ctrl with events := 1 } }))
    let ev (a : BitVec 5) : W64 := (cur s).ctrl.events &&& kreg s a
    let tok := tokLo (cur s) (cur s).keeper.station
    ev 1 ≠ 0 ∧ kreg s 0 = 0 ∧ ev 2 = 0 ∧ kreg s 2 ≠ 0 ∧ tok &&& kreg s 1 ≠ 0 ∧ tok &&& kreg s 2 = 0 ∧
    tok &&& kreg s 1 = kreg s 1 ∧ tok &&& kreg s 3 ≠ kreg s 3 := by decide +kernel

/-- Job 7 on tiles 0 and 1 of die 0, running. -/
def job7 : Job where
  id := 7
  prio := 1
  atPhase := false
  st := .running
  host := 0xFFFF0000
  tag := 3
  rects := [⟨0, 0, 0, 0, 0⟩]
  placed := [⟨0, 0, false, 1⟩, ⟨1, 0, false, 1⟩]
  boot := [(0x800, [0]), (0, [1])]
  words := []
  sent := []
  result := none
  allot := []
  cur := List.replicate 64 0
  old := none
  staged := List.replicate 64 0
  gen := 0
  winsets := []
  commits := []
  announced := none
  served := []
  left := []
  saveBase := none
  saveLost := false
  toAck := []
  restore := false

/-- A tile of job 7 whose keeper runs. -/
def tile7 : Tile :=
  { Tile.reset with ctrl := { Tile.reset.ctrl with jobid := 7 }, keeper := { Tile.reset.keeper with started := true }
                    imageDone := true, imageSent := 1 }

/-- The package with a job on tiles 0 and 1. -/
def withJob (j : Job) : State :=
  { State.reset with tiles := [(0, tile7), (1, tile7)], ls := { State.reset.ls with jobs := State.reset.ls.jobs.set 0 (some j) } }

/-- The package with job 7, tile 0 changed. -/
def base (f : Tile → Tile) : State := modTile (withJob job7) 0 f

/-- Station level; a token or a lamp still busy; all ended, with a job whose leaf word has not been sent. -/
theorem witness_DoneSendsTheLeafWord :
    let ended (s : State) : Prop := (∀ l : Fin 16, ((cur s).act.lamps[l]).st = .stopped ∨ ((cur s).act.lamps[l]).st = .faulted) ∧
      ∀ n, n < 64 → tokSet (cur s) false n = true
    (cur (tile0 atSt)).keeper.station = true ∧ ¬ ended (base (pendingTok 1)) ∧
    ¬ ended (base (withLamp 0 (fun x => { x with st := .draining }))) ∧ (cur (base id)).keeper.station = false ∧
    ended (base (withLamp 0 (fun x => { x with st := .faulted }))) ∧ (base id).ls.jobs[(0 : Fin 4)] = some job7 ∧
    job7.id = jobOf (cur (base id)) ∧ job7.st ≠ .ended ∧ leafSent job7 (base id).focus.val = false := by
  simp only []; decide +kernel

/-- Registers that are assigned and not, of both levels, and a job with and without CAPS.protreg. -/
theorem witness_ControlRegisterInstructions :
    crAssigned 0x000 = true ∧ crAssigned 0x0FF = false ∧ crAssigned 0x100 = true ∧ crAssigned 0x1FF = true ∧
    (cur State.reset).keeper.station = false ∧ (cur (tile0 atSt)).keeper.station = true ∧
    (∀ p ∈ plainRegs, (cur (tile0 (fun t => { t with ctrl := { t.ctrl with caps := 4 } }))).keeper.station = true ∨ p.2.2 = false ∨
      bit (cur (tile0 (fun t => { t with ctrl := { t.ctrl with caps := 4 } }))).ctrl.caps 2 = true) := by decide +kernel

/-- Each kind of protected register, and the four that the station cannot write either. -/
theorem witness_EventsAndProtectedRegisters :
    (cur State.reset).keeper.station = false ∧ bit (cur State.reset).ctrl.caps 2 = false ∧
    (∀ n ∈ [0, 7, 0x40, 0x4F, 0x100, 0x10, 0x2C], crAssigned n = true) ∧ (cur (tile0 atSt)).keeper.station = true := by
  decide +kernel

/-- The bounds of SRAMLIM, UXPOOL, EAGERMAX and MATCHLOG from both sides. -/
theorem witness_RegisterRowsStore :
    let t := cur State.reset
    let lim (v : W64) : Prop := fld v 12 9 ≤ (if t.duplex = .solo then 0x1F0 else 0x1D0) ∧
      fld t.ctrl.uxpool 12 9 + fld t.ctrl.uxpool 32 9 ≤ fld v 12 9
    let pool (v : W64) : Prop := (1 ≤ fld v 32 9 ∧ fld v 32 9 ≤ 256) ∧ fld v 12 9 + fld v 32 9 ≤ fld t.ctrl.sramlim 12 9 ∧ t.eng.pool = []
    let eager (v : W64) : Prop := 1 ≤ fld v 0 6 ∧ fld v 0 6 ≤ 32
    lim 0x1F0000 ∧ ¬ lim 0x1F1000 ∧ ¬ lim 0x1EF000 ∧ pool 0x00000001001EF000 ∧ pool 0x00000100000F0000 ∧ ¬ pool 0x00000001001F0000 ∧
    ¬ pool 0x0000010100000000 ∧ ¬ pool 0 ∧ eager 1 ∧ eager 32 ∧ ¬ eager 0 ∧ ¬ eager 33 ∧
    matchlogOk t 0x0000080000100001 = true ∧ matchlogOk t 0x0000080000100003 = false := by
  simp only []; decide +kernel

/-- Four registers from k4 on. -/
def descr (d0 d1 d2 d3 : W64) (t : Tile) : Tile := withK [(4, d0), (5, d1), (6, d2), (7, d3)] t

/-- Each trap of the issue of a command: k29; a command of the station and one without its capability at job level; an
output token that each of the three inputs repeats. -/
theorem witness_CommandChecksTrap :
    let rows := copyRows 1 4 2 3 0 0 0 ++ lensRows 1 4 2 3 ++ msgRows 1 4 2 3 ++ [(Instr.winset 1 4 2 3, 0x4C, 0)]
    let reach (s : State) (op : BitVec 7) : Prop := (cur s).keeper.station = true ∨
      (op ≠ 0x58 ∧ (op = 0x4C → bit (cur s).ctrl.caps 1 = true))
    let s := tile0 (descr 0 0 0 (1 <<< 58))
    28 < (29 : BitVec 5).toNat ∧ (4 : BitVec 5).toNat ≤ 28 ∧ (28 : BitVec 5).toNat ≤ 28 ∧ ¬ reach s 0x58 ∧ ¬ reach s 0x4C ∧
    (∀ p ∈ rows, reach (tile0 atSt) p.2.1) ∧ reach s 0x40 ∧ (1 : Tok) ≠ 0 ∧ (1 : Tok) = (kreg s (4 + 3)).extractLsb' 58 6 ∧
    (kreg s (28 + 3)).extractLsb' 58 6 ≠ (1 : Tok) := by
  simp only []; decide +kernel

/-- A descriptor without an issue fault for each copy and spill opcode (R284 to R295, R305). -/
def copyDescr : List (List (BitVec 7) × W64 × W64 × W64 × W64) :=
  [([0x40, 0x41, 0x42, 0x46, 0x49, 0x58], 0, 0, 0, 0),
   ([0x43, 0x44], 0x200000001000, 0x100000000, 0x300800080, 64),
   ([0x45], 0x200000001000, 0x100000000, 0, 0),
   ([0x47], 0x200000010000, 0x100, 0xE00010, 0),
   ([0x48], 0x200000010000, 0x20100, 16, 0)]

/-- A descriptor without an issue fault for each lens opcode (R340 to R356). -/
def lensDescr : List (List (BitVec 7) × W64 × W64 × W64 × W64) :=
  [([0x70], 0x10000000000000, 0x10002000000000 + 0x4000, 0x8010080, 0),
   ([0x71], 0x10000000000000, 0x10002000000000 + 0x4000, 0x8010180, 0),
   ([0x72], 0x10000000000000, 0x10002000000000 + 0x4000, 0x10080, 0),
   ([0x73], 0x10000, 0x40, 0, 0),
   ([0x75], 0, 0, 256, 0),
   ([0x74, 0x76, 0x77, 0x78], 0, 0, 0, 0)]

/-- Tile 0 at a level with a descriptor at k4. -/
def atLevel (st : Bool) (x : W64 × W64 × W64 × W64) : State :=
  tile0 (fun t => descr x.1 x.2.1 x.2.2.1 x.2.2.2 (if st then atSt t else t))

/-- The command of a row with that descriptor. -/
def cmdAt (st : Bool) (x : W64 × W64 × W64 × W64) (p : Instr × BitVec 7 × BitVec 2) : KCmd :=
  kcmdOf (atLevel st x) p.2.1 p.2.2 4 1 2 3

/-- Each copy, spill and lens opcode passes the checks of issue with these descriptors, at each level that may issue it. -/
theorem witness_CopyAndLensCommandsEnterTheirQueue :
    (∀ x ∈ copyDescr, ∀ p ∈ copyRows 1 4 2 3 1 1 1, KcChecks (atLevel true x.2) p.2.1 1 4 2 3) ∧
    (∀ x ∈ copyDescr, ∀ p ∈ copyRows 1 4 2 3 1 1 1, p.2.1 = 0x58 ∨ KcChecks (atLevel false x.2) p.2.1 1 4 2 3) ∧
    (∀ x ∈ lensDescr, ∀ st : Bool, ∀ p ∈ lensRows 1 4 2 3, KcChecks (atLevel st x.2) p.2.1 1 4 2 3) := by
  unfold KcChecks; decide +kernel

/-- With these descriptors there is room and nothing faults at issue, and every opcode has one. -/
theorem witness_copy_and_lens_descriptors :
    copyDescr.all (fun x => [true, false].all (fun st => decide ((cur (atLevel st x.2)).stCopy = none) &&
      decide ((cur (atLevel st x.2)).eng.copyQ.length < 2) && (copyRows 1 4 2 3 1 1 1).all (fun p =>
        !x.1.contains p.2.1 || copyIssueReason (cur (atLevel st x.2)) (cmdAt st x.2 p) == 0))) = true ∧
    lensDescr.all (fun x => [true, false].all (fun st => decide ((cur (atLevel st x.2)).stLens = none) &&
      decide ((cur (atLevel st x.2)).eng.lensQ.length < 4) && (lensRows 1 4 2 3).all (fun p =>
        !x.1.contains p.2.1 || lensIssueReason (cur (atLevel st x.2)) (cmdAt st x.2 p) == 0))) = true ∧
    (copyRows 1 4 2 3 1 1 1).all (fun p => copyDescr.any (fun x => x.1.contains p.2.1)) = true ∧
    (lensRows 1 4 2 3).all (fun p => lensDescr.any (fun x => x.1.contains p.2.1)) = true := by
  decide +kernel

/-- Queues and station entries without room. -/
theorem witness_full_queues :
    let c : KCmd := kcmdOf State.reset 0x40 0 4 1 0 0
    let full := tile0 (fun t => { t with eng := { t.eng with copyQ := [c, c], lensQ := [c, c, c, c] } })
    let station := tile0 (fun t => atSt { t with stCopy := some c, stLens := some c })
    ¬ (cur full).eng.copyQ.length < 2 ∧ ¬ (cur full).eng.lensQ.length < 4 ∧ (cur station).keeper.station = true ∧
    ¬ (cur station).stCopy = none ∧ ¬ (cur station).stLens = none := by
  simp only []; decide +kernel

/-- A slot that holds a receive. -/
def slot (st : SlotState) : MSlot where
  kind := .recv
  st := st
  status := 0
  peer := 1
  anySrc := false
  tag := 5
  anyTag := false
  group := 0
  buf := 0x1000
  len := 64
  d3 := 0
  tout := 1
  tin0 := 0
  tin1 := 0
  tin2 := 0
  station := false
  job := 7
  stamp := 0
  recPeer := 0
  recTag := 0
  msgLen := 0
  dlvLen := 0
  subs := []
  src := 0
  seq := 0
  mkind := .eager
  got := []
  stash := []
  ackEarly := false
  tree := []
  payload := []
  early := []
  todo := []
  units := none

/-- The tree descriptor of one RANK entry, tile 1 of the package (R485). -/
def oneLeaf : Mem := [(0x2000, 1), (0x2010, 1)]

/-- Each message command in a free slot of its level; a busy slot; SCAN on a domain of level 2 and WINSET with an input
token pending. -/
theorem witness_MessageScanAndWinsetCommandsWait :
    let d3 (op : BitVec 7) : W64 := if op = 0x62 then 0x2000 else if op = 0x65 then 0x100003000 else 0
    let d0 (op : BitVec 7) : W64 := if op = 0x62 then 0 else 1
    (∀ p ∈ msgRows 1 4 2 3, ∀ st : Bool,
      let s := base (fun t => { descr (d0 p.2.1) 5 0x4000001000 (d3 p.2.1) (if st then atSt t else t) with sram := oneLeaf })
      KcChecks s p.2.1 1 4 2 3 ∧ fld (kreg s (4 + 1)) 36 7 < 8 ∧ SMap.find (cur s).eng.slots 0 = none ∧
      SMap.find (cur s).stSlots 0 = none ∧ msgOk s s.focus.val (kcmdOf s p.2.1 p.2.2 4 1 2 3) = true) ∧
    ((base (fun t => { t with eng := { t.eng with slots := [(0, slot .waiting)] } })).tiles.map (fun p =>
      (SMap.find p.2.eng.slots 0).map MSlot.busy)).head? = some (some true) ∧
    (let s := base (fun t => pendingTok 2 (descr 0x200000001000 0x700000001 0 0
        { t with ctrl := { t.ctrl with dom := #v[0, 0x1000000000000000, 0, 0], caps := 2 } }))
     (∀ c ∈ (cur s).eng.scanQ, inputsSet (cur s) c = false) ∧ (2 : Tok) ≠ 0 ∧ (2 : Tok) ≠ 1 ∧
     tokSet (cur s) (cur s).keeper.station (2 : Tok).toNat = false ∧ KcChecks s 0x3A 1 4 2 3 ∧
     fld (vget (cur s).ctrl.dom 1 0) 59 3 ≠ 0 ∧ scanOk (cur s) (kcmdOf s 0x3A 1 4 1 2 3) = true ∧ KcChecks s 0x4C 1 4 2 3) := by
  unfold KcChecks; simp only []; decide +kernel

/-- A stored header of job 7. -/
def header (tag : BitVec 24) : HdrRec := ⟨{ packet .rts 0 with tag := tag }, false, [], [], []⟩

/-- A probe that nothing matches, one by group all ones, and one that the second header matches; slots busy and not. -/
theorem witness_ProbesAndSlotQueries :
    let s := base (fun t => withK [(1, 1), (2, 6), (3, 0xFFF000005)] { t with
      msg := { t.msg with hdrs := [header 5, header 6] }, eng := { t.eng with slots := [(3, slot .posted)] } })
    let fits_ (b : BitVec 5) (h : HdrRec) : Prop := h.pkt.job = jobOf (cur s) ∧ h.pkt.group = (kreg s b).extractLsb' 24 12 ∧
      ((kreg s 1).extractLsb' 0 32 = 0xFFFFFFFF ∨ h.pkt.src = (kreg s 1).extractLsb' 0 32) ∧
      ((kreg s b).extractLsb' 0 24 = 0xFFFFFF ∨ h.pkt.tag = (kreg s b).extractLsb' 0 24)
    (kreg s 3).extractLsb' 24 12 = 0xFFF ∧ (∀ h ∈ (cur s).msg.hdrs, ¬ fits_ 0 h) ∧ (kreg s 2).extractLsb' 24 12 ≠ 0xFFF ∧
    (cur s).msg.hdrs = [header 5] ++ header 6 :: [] ∧ (∀ g ∈ [header 5], ¬ fits_ 2 g) ∧ fits_ 2 (header 6) ∧
    (SMap.find (cur s).eng.slots 3).map MSlot.busy = some true ∧ SMap.find (cur s).eng.slots 4 = none := by
  simp only []; decide +kernel

/-- A slot never used, one POSTED; the station with no transfer and with one in DATA, at both operands. -/
theorem witness_CancelAndMquiesce :
    let s := base (fun t => withK [(1, 3)] { t with eng := { t.eng with slots := [(3, slot .posted)] } })
    let d := base (fun t => atSt { t with eng := { t.eng with slots := [(3, slot .data)] } })
    let n := base (fun t => withK [(1, 1)] (atSt t))
    (cur s).keeper.station = false ∧ SMap.find (cur s).eng.slots (fld (kreg s 0) 0 7) = none ∧
    SMap.find (cur s).eng.slots (fld (kreg s 1) 0 7) = some (slot .posted) ∧ (slot .posted).job = jobOf (cur s) ∧
    (cur n).keeper.station = true ∧ bit (kreg n 1) 0 = true ∧ bit (kreg n 0) 0 = false ∧
    (¬ ∃ p ∈ (cur n).eng.slots, p.2.st = .data) ∧ bit (kreg d 0) 0 = false ∧ ∃ p ∈ (cur d).eng.slots, p.2.st = .data := by
  simp only []; decide +kernel

/-- Whether an operand of ACC.ALLOC is legal (R356). -/
def allocOk (w : W64) : Bool :=
  w &&& ~~~ (maskBits 0 14) == 0 && decide (1 ≤ fld w 0 8) && decide (fld w 0 8 ≤ 128) &&
    (if bit w 8 then decide (1 ≤ fld w 9 5) else fld w 9 5 == 0)

/-- Operands at both ends of the count and of the list length. -/
theorem witness_acc_alloc_operands :
    [(1 : W64), 128, 0x301, 0x3F01].all allocOk = true ∧ [(0 : W64), 129, 0x101, 0x201, 0x4001].any allocOk = false := by
  decide +kernel

/-- No run of banks, one from bank 0, and one after a reserved bank; a full queue is in `witness_full_queues`. -/
theorem witness_AccAllocAndLensQueries :
    let s := base (withK [(1, 128), (2, 2)])
    let u := setLens s 0 { Lens.reset with banks := [(0, ⟨.reserved, 1, 0, none⟩)] }
    let free (s : State) (b : Nat) : Prop := (SMap.getD (lensOf s (clusterOf s.focus.val)).banks b Bank.reset).st = .free
    (cur s).keeper.station = false ∧ (cur s).eng.lensQ.length < 4 ∧ allocOk (kreg s 1) = true ∧ allocOk (kreg s 2) = true ∧
    (∀ j, j < 128 → free s (0 + j)) ∧ ¬ (∀ j, j < 128 → free u (0 + j)) ∧ (∀ j, j < 2 → free u (1 + j)) ∧
    ¬ (∀ j, j < 2 → free u (0 + j)) := by
  simp only []; decide +kernel

/-- Addresses on both sides of the limit of FLASH and LSTART, one that is not aligned, full and free queues. -/
theorem witness_FlashLstartAndLstop :
    let s := tile0 (withK [(1, 0x1EFF00), (2, 0xFFFF), (3, 0x1F0000), (4, 0x80), (5, 0x1EFF07)])
    let limit := Nat.min (fld (cur s).ctrl.sramlim 12 9 * 4096) 0x1F0000
    let full := tile0 (fun t => { t with eng := { t.eng with flashQ := List.replicate 4 ⟨0, 1⟩ } })
    let station := tile0 (fun t => atSt { t with stFlash := some ⟨0, 1⟩ })
    (kreg s 0).extractLsb' 0 16 = (0 : BitVec 16) ∧ (kreg s 2).extractLsb' 0 16 ≠ (0 : BitVec 16) ∧ kreg s 4 &&& 0xFF ≠ 0 ∧
    kreg s 1 &&& 0xFF = 0 ∧ (kreg s 1).toNat + 192 ≤ limit ∧ kreg s 3 &&& 0xFF = 0 ∧ limit < (kreg s 3).toNat + 192 ∧
    (cur s).eng.flashQ.length < 4 ∧ ¬ (cur full).eng.flashQ.length < 4 ∧ ¬ (cur station).stFlash = none ∧
    kreg s 5 &&& 0xF8 = 0 ∧ (kreg s 5).toNat / 256 * 256 + 192 ≤ limit ∧ (lampAt (cur s) 15).st = .stopped ∧
    bit (kreg s 2) 15 = true ∧ bit (kreg s 0) 15 = false := by
  simp only []; decide +kernel

/-- Lamps that have ended and that have not; floors and ceilings at their bounds; the station with its lamps ended. -/
theorem witness_LjoinLgroupLswap :
    let s := tile0 (fun t => withK [(1, 0xFFFF), (2, 0x100 + 0x1000000), (3, 1), (4, 0x101 + 0x1010000), (5, 0x1000000)]
      (withLamp 15 (fun x => { x with st := .running }) t))
    let ended (l : Nat) : Prop := (lampAt (cur s) l).ended = true ∧ (lampAt (cur s) l).flight.any InFlight.pending = false
    let sum (a b : BitVec 5) : Nat := fld (kreg s b) 0 9 +
      sumN ((List.range 4).map (fun h => if h = fld (kreg s a) 0 2 then 0 else vget (cur s).act.floors h 0))
    let ok (a b : BitVec 5) : Prop := fld (kreg s b) 0 9 ≤ fld (kreg s b) 16 9 ∧ fld (kreg s b) 16 9 ≤ 256 ∧ sum a b ≤ 256 ∧
      claimWaits (cur s) = false
    ended 0 ∧ bit (kreg s 1) 15 = true ∧ ¬ ended 15 ∧ ok 0 2 ∧ ok 3 5 ∧ ¬ ok 3 2 ∧ ¬ ok 0 4 ∧ ¬ ok 0 3 ∧
    (cur s).keeper.station = false ∧ (cur (tile0 atSt)).keeper.station = true ∧
    ∀ l, l < 16 → (lampAt (cur (tile0 atSt)) l).ended = true := by
  simp only []; decide +kernel

/-- Selectors of an item at the first and the last index, of a STOPPED lamp's PC, and with a reserved bit. -/
theorem witness_LstateAndLwrite :
    let sel (l item idx : Nat) : W64 := BitVec.ofNat 64 (l + item * 2 ^ 8 + idx * 2 ^ 16)
    let s := tile0 (withK [(1, sel 15 0x11 0), (2, sel 15 0x11 63), (3, sel 0 0x01 0), (4, 0x20), (5, 1 <<< 63)])
    kreg s 1 = sel 15 0x11 (32 * 0 + 0) ∧ kreg s 2 = sel 15 0x11 (32 * 1 + 31) ∧ kreg s 3 = sel 0 0x01 0 ∧
    (lampAt (cur s) 0).st = .stopped ∧ kreg s 4 &&& ~~~ (0xFFFF1F : W64) ≠ 0 ∧ kreg s 5 &&& ~~~ (0xFFFF1F : W64) ≠ 0 := by
  simp only []; decide +kernel

/-- Tile 0 of job 7, DOMB set to its die (level 3). -/
def member (f : Tile → Tile) : State :=
  base (fun t => f { t with ctrl := { t.ctrl with dom := #v[0, 0x1800000000000000, 0, 0] } })

/-- The domain of DOMB of tile 0. -/
def domB (f : Domain → Domain) : State := setDom (member id) 0 1 (f (domOf (member id) 0 1))

/-- A domain without arrivals whose epoch the operands name, one that is broken, and operands that name another epoch. -/
theorem witness_CollectivesArriveOrCompleteAtOnce :
    let s := member (withK [(1, 1)])
    let y := domOf s s.focus.val 1
    let broken := domOf (domB (fun x => { x with broken := true })) 0 1
    fld (vget (cur s).ctrl.dom 1 0) 59 3 ≠ 0 ∧ (∀ p ∈ y.parts, p.tile ≠ s.focus) ∧ (∀ p ∈ y.arrivals, p.tile ≠ s.focus) ∧
    y.broken = false ∧ (y.kind = 0 ∨ y.kind = 3) ∧ (kreg s 0).extractLsb' 0 16 = y.epoch ∧ (kreg s 1).extractLsb' 0 16 ≠ y.epoch ∧
    broken.broken = true ∧ broken.parts = [] ∧ broken.epoch = 0 := by
  simp only []; decide +kernel

/-- A buffer for two members at the top of SRAM; a register of level 0; a part with its result. -/
theorem witness_AnnouncementsResetsAndResults :
    let s := member (withK [(1, 0x1EFFF0)])
    let part : BeaconPart := ⟨0, 0, 3, 0, 0, 0, 0, some 0, 0, false⟩
    let given := domB (fun x => { x with parts := [part] })
    fld (vget (cur s).ctrl.dom 1 0) 59 3 ≠ 0 ∧ (∀ p ∈ (domOf s 0 1).parts, p.tile ≠ s.focus) ∧ (kreg s 1).toNat % 8 = 0 ∧
    (domMembers s 0 1).length = 2 ∧ inBounds (cur s) (cur s).keeper.station (kreg s 1).toNat (8 * (domMembers s 0 1).length) = true ∧
    fld (vget (cur s).ctrl.dom 0 0) 59 3 = 0 ∧ fld (vget (cur given).ctrl.dom 1 0) 59 3 ≠ 0 ∧
    partOf (domOf given 0 1) 0 0 = some part ∧ part.kind = 3 ∧ part.epoch = (kreg given 0).extractLsb' 0 16 ∧
    part.value = (kreg given 0).extractLsb' 0 32 ∧ part.buf = 0 ∧ part.tile = given.focus ∧ part.result = some 0 ∧
    part.readyAt ≤ given.cycle ∧ part.phase = false := by
  simp only []; decide +kernel

/-- The parts of an announcement and of a reset, and the BARX that waits for it. -/
theorem witness_results_of_announcements_and_resets :
    let a : BeaconPart := ⟨0, 1, 0, 0, 0, 0, 0, some 1, 0, false⟩
    let r : BeaconPart := ⟨0, 2, 2, 0, 0, 0, 0, some 0, 0, false⟩
    let s := domB (fun x => { x with parts := [a, r] })
    let w := modCur s (fun t => { t with keeper := { t.keeper with waiting := some (.barx 5 0 1) } })
    partOf (domOf s 0 1) 0 1 = some a ∧ a.kind = 0 ∧ partOf (domOf w 0 1) 0 2 = some r ∧ r.kind = 2 ∧ a.tile = s.focus ∧
    r.tile = w.focus ∧ (cur w).keeper.waiting = some (.barx 5 0 1) := by
  simp only []; decide +kernel

/-- A request without CAPS.linkctl; links and sectors at their bounds; a link that is DOWN; both ends of link 0. -/
theorem witness_TurnRequests :
    let s := tile0 (fun t => withK [(1, 0x20), (2, 0xEB), (3, 0x10), (4, 0xF0), (5, 0x2C)] { t with ctrl := { t.ctrl with caps := 1 } })
    let d := setLink s 0 { Link.reset with st := .down }
    let bad (s : State) (a : BitVec 5) : Prop := 11 < fld (kreg s a) 0 4 ∨ fld (kreg s a) 4 5 < 2 ∨ 14 < fld (kreg s a) 4 5 ∨
      (linkOf s (fld (kreg s a) 0 4)).st = .down
    (cur s).keeper.ticket = none ∧ (cur s).keeper.waiting = none ∧ (cur s).keeper.resume = none ∧
    bit (cur s).ctrl.caps 0 = true ∧ bit (cur State.reset).ctrl.caps 0 = false ∧ (cur State.reset).keeper.station = false ∧
    ¬ bad s 1 ∧ ¬ bad s 2 ∧ bad s 3 ∧ bad s 4 ∧ bad s 5 ∧ bad d 1 ∧ (linkOf s 0).qa.length < 4 ∧ (linkOf s 0).qb.length < 4 ∧
    atB 0 (s.focus.val / 256) = false ∧ atB 8 (256 / 256) = true := by
  simp only []; decide +kernel

/-- Links 0, 11 and 12; a job with an allotment; a commit that waits and one that has been served. -/
theorem witness_LinkAndWindowInstructions :
    let j := { job7 with allot := [(0, 1, 2)], served := [(4, 9)] }
    let s := modTile (withJob j) 0 (fun t => withK [(1, 11), (2, 12)] { t with ctrl := { t.ctrl with caps := 2 } })
    let w := modCur s (fun t => { t with keeper := { t.keeper with ticket := some 4 } })
    fld (kreg s 1) 0 4 ≤ 11 ∧ 11 < fld (kreg s 2) 0 4 ∧ (linkOf s 11).sector < 32 ∧ (linkOf s 11).qa.length < 8 ∧
    (linkOf s 11).qb.length < 8 ∧ targetOf (linkOf s 11) < 32 ∧ jobById s (jobOf (cur s)) = some j ∧
    j.allot.find? (fun p => p.1 == fld (kreg s 0) 0 3) = some (fld (kreg s 0) 0 3, 1, 2) ∧
    bit (cur s).ctrl.caps 1 = true ∧ bit (cur State.reset).ctrl.caps 1 = false ∧ (cur s).keeper.ticket = none ∧
    (cur s).keeper.resume = none ∧ s.ls.jobs[(0 : Fin 4)] = some j ∧ j.id = jobOf (cur s) ∧ j.st ≠ .ended ∧
    (cur w).keeper.ticket = some 4 ∧ w.cycle < 4 ∧ (4 : Nat) ≤ { w with cycle := 4 }.cycle ∧ j.served.find? (fun p => p.1 == 4) = some (4, 9) := by
  simp only []; decide +kernel

/-- A value that passes the rule of a domain register, with no operation open and with one; ENGSWAP with and without a parked
context; the two kinds of LSCMD. -/
theorem witness_DomainEngswapAndLscmdRows :
    let open_ := domB (fun x => { x with parts := [⟨0, 0, 3, 0, 0, 0, 0, none, 0, false⟩] })
    let parked := tile0 (fun t => { t with parked := some (7, EngineCtx.reset) })
    (cur (member id)).keeper.station = false ∧ beaconOpen (member id) 0 1 = false ∧ domOk 0 0x1000000000000000 = true ∧
    domOk 0 0x1800000000000000 = true ∧ beaconOpen open_ open_.focus.val 1 = true ∧ bit (0 : W64) 0 = false ∧ bit (1 : W64) 0 = true ∧
    (cur (member id)).parked = none ∧ (cur parked).parked = some (7, EngineCtx.reset) ∧ fld (1 : W64) 0 4 ≠ 0 := by
  simp only []; decide +kernel

/-- A tile that acknowledges a park or a restore, alone and with another one, and one that has nothing to acknowledge; a context
that is not as at reset. -/
theorem witness_acknowledgements :
    let s (cmd : W64) (xs : List Nat) : State := modTile (withJob { job7 with toAck := xs }) 0
      (fun t => { t with ctrl := { t.ctrl with lscmd := cmd } })
    let acks (xs : List Nat) : Option (List Nat) := (s 1 xs).ls.jobs[(0 : Fin 4)].map (fun j => j.toAck)
    fld (0 : W64) 0 4 = 0 ∧ (∀ n ∈ [1, 2, 3], fld (cur (s (BitVec.ofNat 64 n) [0])).ctrl.lscmd 0 4 = n) ∧
    (∀ xs ∈ [[0], [1], [0, 1]], acks xs = some xs) ∧ (s 1 []).focus.val = 0 ∧
    { EngineCtx.reset with copyFault := 1 }.copyFault ≠ EngineCtx.reset.copyFault ∧ jobOf (cur (s 0 [])) ≠ 9 := by
  simp only []; decide +kernel
/-- Lamp 0 of tile 0 with the latches of a move. -/
def lampOp (f : Lamp → Lamp) (g : Latch → Latch) : State :=
  { base (withLamp 0 f) with bundle := g Latch.reset }

/-- The lamp traps INVALID (R59). -/
def trapping (x : Lamp) : Lamp := { x with mode := 2 }

/-- An operand with the same 32-bit lane everywhere. -/
def lanes (w : W32) (l : Latch) : Latch := { l with t := bcast32 w }

/-- INVALID trapped and raised by a signaling NaN, raised and not trapped, and not raised; the same for the compares. -/
theorem witness_LampFloatOperationsAndCompares :
    let s := lampOp trapping (lanes 0x7F800001)
    let x (s : State) : Lamp := lampAt (tileOf s s.bundle.tile.val) s.bundle.lamp.val
    let d (v : V128) (j : Nat) : FVal := fp32.decodeDaz false (lane v 32 j).toNat
    let fl (s : State) : Nat := orAll ((List.range (128 / 32)).map (fun j =>
      (fp32.fmLane .rne false false false (d s.bundle.fmA j) (d s.bundle.fmB j) (some (d s.bundle.t j))).2))
    let sf (s : State) : Nat := orAll ((List.range (128 / 32)).map (fun j => (sfLane .rcp false (lane s.bundle.t 32 j).toNat).2))
    let q := lampOp trapping (lanes 0x7FC00000)
    (x s).mode.getLsbD 1 = true ∧ fl s % 2 = 1 ∧ sf s % 2 = 1 ∧ fl (lampOp trapping id) % 2 = 0 ∧
    sf (lampOp trapping (lanes 0x3F800000)) % 2 = 0 ∧ (x (lampOp id id)).mode.getLsbD 1 = false ∧
    CmpType.split .f32 = .inr fp32 ∧ CmpType.split .f16 = .inr fp16 ∧ CmpType.split .bf16 = .inr bf16 ∧
    (fp32.decode (lane s.bundle.t 32 0).toNat).isSig = true ∧ (fp32.decode (lane q.bundle.t 32 3).toNat).isNan = true ∧
    (fp32.decode (lane q.bundle.t 32 3).toNat).isSig = false := by
  simp only []; decide +kernel

/-- The compare types on integers (the hypothesis of R147's clause). -/
theorem witness_LampPredicateOperations :
    CmpType.split .s8 = .inl (8, true) ∧ CmpType.split .s16 = .inl (16, true) ∧ CmpType.split .s32 = .inl (32, true) ∧
    CmpType.split .z8 = .inl (8, false) ∧ CmpType.split .z16 = .inl (16, false) ∧ CmpType.split .z32 = .inl (32, false) :=
  ⟨rfl, rfl, rfl, rfl, rfl, rfl⟩

/-- A tile with CVTMODE set. -/
def cvtTraps (s : State) : State := modTile s 0 (fun t => { t with ctrl := { t.ctrl with cvtmode := 1 } })

/-- An overflow that is trapped, an INVALID that is trapped, and conversions with neither. -/
theorem witness_LampConversionsAndWordAccesses :
    let rs (s : State) : List Conv := (srcSeq 32 16 s.bundle).map (fun v =>
      convert tF32 tE4m3 .rne (bit (tileOf s 0).ctrl.cvtmode 0) false false v)
    let big := cvtTraps (lampOp id (lanes 0x7F7FFFFF))
    let nan := lampOp trapping (lanes 0x7F800001)
    (∃ c ∈ rs big, c.trap = true) ∧ (¬ ∃ c ∈ rs nan, c.trap = true) ∧ orAll ((rs nan).map (fun c => c.flags)) % 2 = 1 ∧
    (lampAt (tileOf nan 0) 0).mode.getLsbD 1 = true ∧ (¬ ∃ c ∈ rs (lampOp id id), c.trap = true) ∧
    orAll ((rs (lampOp id id)).map (fun c => c.flags)) % 2 = 0 := by
  simp only []; decide +kernel

/-- A window that holds a block, one whose elements overflow BF16 under the trap, and one that decodes to nothing. -/
theorem witness_LampPx8AndPlanes :
    let ok := lampOp id id
    let big := cvtTraps (lampOp id (fun l => { l with t := 0x3FFB }))
    let bad := lampOp trapping (fun l => { lanes 0xFFFFFFFF l with cvA := BitVec.allOnes 128 })
    (px8DecodeBlock (px8Window ok.bundle)).isSome = true ∧ px8DecodeBlock (px8Window bad.bundle) = none ∧
    (lampAt (tileOf bad 0) 0).mode.getLsbD 1 = true ∧
    ((px8DecodeBlock (px8Window big.bundle)).map (fun p => p.1.elems.any (fun e =>
      (px8Bf16Elem .rne (bit (tileOf big 0).ctrl.cvtmode 0) false p.1.scale e).trap))) = some true ∧
    ((px8DecodeBlock (px8Window ok.bundle)).map (fun p => p.1.elems.any (fun e =>
      (px8Bf16Elem .rne false false p.1.scale e).trap))) = some false := by
  simp only []; decide +kernel

/-- Bank 0 of a lamp mapped to block 0. -/
def mapped (x : Lamp) : Lamp := { x with ptrs := vset x.ptrs 0 (some ⟨0, false, false⟩) }

/-- Accumulator bank 0 of the lens of tile 0 in a state, owned by group `g`. -/
def accBank (st : BankState) (g : BitVec 2) (s : State) : State :=
  setLens s 0 { Lens.reset with banks := [(0, ⟨st, 0, 0, some g⟩)] }

/-- Every access of `ls` in order with its banks free, at the top of the job's SRAM and at accumulator row 4. -/
theorem witness_LampMemoryAccessesAndFaults :
    [(Instr.lsLd, 0x1EFFF0), (.lsLdSk, 0x1EFFF0), (.ldB32, 0x1EFFFC), (.ldgB32, 0x1EFFFC), (.ldb, 0x1EFF80), (.lsSt, 0x1EFFF0),
      (.lsStSk, 0x1EFFF0), (.stB32, 0x1EFFFC), (.stgB32, 0x1EFFFC), (.stb, 0x1EFF80), (.atomAddF32, 0x1EFFF0),
      (.atomAddBf16, 0x1EFFF0), (.atomAddS32, 0x1EFFF0), (.ldacc, 4), (.ldaccCol, 4), (.stacc, 4)].all (fun p =>
        let s := accBank .sum 0 (lampOp mapped (lanes p.2))
        lsCause s 0 0 p.1 s.bundle == 0 && !(lampAt (tileOf s 0) 0).flight.any InFlight.pending &&
          (lampAt (tileOf s 0) 0).after.isEmpty && lsBanksFree s 0 p.1 s.bundle && (tileOf s 0).ckpt.isNone) = true := by
  decide +kernel

/-- Addresses just out of bounds and not aligned, an unmapped bank, and rows of free and of foreign banks. -/
theorem witness_ls_faults :
    let at_ (w : W32) : State := accBank .sum 1 (lampOp id (lanes w))
    let row (s : State) : Nat := (lane s.bundle.t 32 0).toNat % 4096
    let bank (s : State) (n : Nat) : Bank := SMap.getD (lensOf s (clusterOf 0)).banks (n / 32) Bank.reset
    let lim := jobLimit (tileOf (at_ 0) 0)
    lim < lsAddr (at_ 0x1EFFF1).bundle 0 + 16 ∧ lsAddr (at_ 0x1EFFEF).bundle 0 + 16 ≤ lim ∧ lsAddr (at_ 0x1EFFEF).bundle 0 % 16 ≠ 0 ∧
    lim < lsAddr (at_ 0x1EFFFD).bundle 3 + 4 ∧ (∀ n, n < 4 → lsAddr (at_ 0x1EFFFB).bundle n + 4 ≤ lim) ∧
    lsAddr (at_ 0x1EFFFB).bundle 0 % 4 ≠ 0 ∧ (lampAt (tileOf (at_ 0) 0) 0).bank (lsBank (at_ 0).bundle) = none ∧
    (bank (at_ 32) (row (at_ 32))).st = .free ∧ (bank (at_ 31) (row (at_ 31))).st = .sum ∧
    (bank (at_ 31) (row (at_ 31))).owner ≠ some (lampAt (tileOf (at_ 31) 0) 0).group ∧ row (at_ 1) % 4 ≠ 0 ∧
    row (at_ 32) % 4 = 0 := by
  simp only []; decide +kernel

/-- A lamp outside a repetition with and without a fetched block; repetitions up to the last bundle of the block and past
it; a FIFO with room. -/
theorem witness_LampControlOperations :
    let f : Fetched := ⟨1, 0, [], []⟩
    let s := lampOp (fun x => { x with fetched := some f }) (lanes 0x1EFF00)
    let n := lampOp (fun x => { x with rep := some ⟨0, 0, 0, 0, 0, []⟩ }) id
    let body (s : State) : Nat := (lampAt (tileOf s 0) 0).bundle.toNat + ((lane s.bundle.t 32 0).toNat / 256 % 16 + 1)
    (lampAt (tileOf s 0) 0).rep = none ∧ (lampAt (tileOf s 0) 0).fetched = some f ∧ (lampAt (tileOf (lampOp id id) 0) 0).fetched = none ∧
    (lane s.bundle.t 32 0).toNat / 256 * 256 + 192 ≤ jobLimit (tileOf s 0) ∧ ((lampAt (tileOf s 0) 0).block.toNat + 1) * 256 + 192 ≤ jobLimit (tileOf s 0) ∧
    jobLimit (tileOf s 0) < (lane (lampOp id (lanes 0x1F0000)).bundle.t 32 0).toNat / 256 * 256 + 192 ∧
    (lampAt (tileOf n 0) 0).rep.isSome = true ∧ body (lampOp id (lanes 0x600)) ≤ 7 ∧ 7 < body (lampOp id (lanes 0x700)) ∧
    body (lampOp id (lanes 0xE00)) ≤ 15 ∧ 15 < body (lampOp id (lanes 0xF00)) ∧ (lampAt (tileOf s 0) 15).fifo.length < 2 := by
  simp only []; decide +kernel

/-- A mapped bank, one that fills, an unmapped one; queues with room, full, and with a pass that waits; the lamp's group with
and without a free claim, and a lamp that holds a loan; a passed block that its own group, a borrower, and a group at its
ceiling take. -/
theorem witness_LampBankOperations :
    let set (f : LampSet → LampSet) (s : State) : State := modTile s 0 (fun t => { t with act := f t.act })
    let s := lampOp mapped id
    let fill := lampOp (fun x => { mapped x with fills := [(0, 9)] }) id
    let floor0 : State → State := set (fun a => { a with floors := vset a.floors 0 0 })
    let borrow := floor0 (lampOp id id)
    let waits := modTile borrow 0 (fun t => { t with free := [] })
    let loan := floor0 (lampOp (fun x => { x with ptrs := vset x.ptrs 1 (some ⟨0, true, false⟩) }) id)
    let t (s : State) : Tile := tileOf s 0
    let queue (xs : List (Nat × Nat)) : State → State := set (fun a => { a with handoff := vset a.handoff 0 xs })
    let own := queue [(5, 0)] (lampOp id id)
    let other := queue [(5, 1)] borrow
    let capped := set (fun a => { a with ceils := vset a.ceils 0 0 }) other
    let waiting := modTile s 0 (fun t => { t with passQ := [⟨.pass, 3, 0, 0, 0, none⟩] })
    (lampAt (t s) 0).bank 0 = some ⟨0, false, false⟩ ∧ (lampAt (t s) 0).filling s.cycle 0 = false ∧ (queueOf (t s) 0).length < 16 ∧
    (t s).passQ = [] ∧ 16 ≤ (queueOf (t (queue (List.replicate 16 (5, 0)) s)) 0).length ∧ (∃ z ∈ (t waiting).passQ, z.group = 0) ∧
    (lampAt (t loan) 0).bank 0 = none ∧ (lampAt (t fill) 0).bank 0 ≠ none ∧
    (lampAt (t fill) 0).filling fill.cycle 0 = true ∧ (vget (lampAt (t s) 0).ptrs 0 none).isSome = true ∧
    vget (lampAt (t borrow) 0).ptrs 0 none = none ∧ claimOwn (t (lampOp id id)) 0 = true ∧ freeNow (t (lampOp id id)) ≠ [] ∧
    claimOwn (t borrow) 0 = false ∧ (lampAt (t borrow) 0).holdsLoan = false ∧ (t borrow).loanQ = [] ∧
    claimOk (t borrow) 0 1 true = true ∧ freeNow (t borrow) ≠ [] ∧ claimOwn (t loan) 0 = false ∧
    (lampAt (t loan) 0).holdsLoan = true ∧ claimOwn (t waits) 0 = false ∧ claimOk (t waits) 0 1 true = false ∧
    queueHead (t own) 0 = some (5, 0) ∧ takesWait (t own) 0 = false ∧ takeOwn (t own) 0 0 = true ∧
    queueHead (t other) 0 = some (5, 1) ∧ takeOwn (t other) 0 1 = false ∧ takeOk (t other) 0 1 true = true ∧
    takeOwn (t capped) 0 1 = false ∧ takeOk (t capped) 0 1 true = false ∧ queueHead (t waits) 0 = none := by
  simp only []; decide +kernel
/-- A tile with these events pending and open in EVMASK. -/
def pendingEv (w : W64) (t : Tile) : Tile := { t with ctrl := { t.ctrl with events := w, evmask := BitVec.allOnes 64 } }

/-- Each asynchronous cause alone: DEBUG, PREEMPT (also deferred, the keeper halted), the engines', the lowest and the
highest lamp, CHECK and the timer. -/
theorem witness_TrapsAndKeeperEvents :
    let m (s : State) : W64 := (cur s).ctrl.events &&& (cur s).ctrl.evmask
    let ev (n : Nat) : State := base (pendingEv (oneBit n))
    let only (n : Nat) : Prop := ∀ b, b < 64 → (bit (m (ev n)) b = true ↔ b = n)
    let deferred := base (fun t => pendingEv (oneBit 38) { t with keeper := { t.keeper with preemptBy := some 9, halted := true } })
    (∀ n ∈ [39, 38, 33, 34, 35, 0, 15, 36, 37], only n) ∧ (cur (ev 0)).keeper.station = false ∧
    (cur (ev 38)).keeper.preemptBy = none ∧ (cur deferred).keeper.halted = true ∧ bit (m deferred) 38 = true ∧
    (cur (ev 0)).keeper.halted = false ∧ (cur (ev 0)).keeper.inTrap = false ∧ bit (cur (ev 0)).ctrl.trapvec 0 = false := by
  simp only []; decide +kernel

/-- A waiting TWAIT whose tokens are set, a deferral that ends, and a pair whose checkpoint holds a granule and a slot. -/
theorem witness_waits_deferrals_and_rollbacks :
    let w := base (fun t => { t with keeper := { t.keeper with waiting := some (.twait 1) } })
    let d := base (fun t => { t with keeper := { t.keeper with preemptBy := some 0 } })
    let c : Checkpoint := ⟨Keeper.reset, Ctrl.reset true, LampSet.reset, List.range 256, [(0x10, 5)], [(3, 7)]⟩
    let r := base (fun t => paired { t with mismatch := true, ckpt := some c })
    (cur w).keeper.waiting = some (.twait 1) ∧ tokLo (cur w) (cur w).keeper.station &&& kreg w 1 = kreg w 1 ∧
    (tileOf d 0).keeper.preemptBy = some 0 ∧ 0 ≤ d.cycle ∧ (tileOf r 0).mismatch = true ∧ (tileOf r 0).ckpt.map (fun x => (x.granules, x.slots)) = some (c.granules, c.slots) ∧
    (tileOf r 0).copyRun = none ∧ (tileOf r 0).failing = [] ∧ (tileOf r 0).eng.copyQ = [] ∧ (c.granules.map Prod.fst).Nodup ∧
    (∀ p ∈ c.granules, p.1 % 16 = 0) ∧ (c.slots.map Prod.fst).Nodup := by
  simp only []; decide +kernel

/-- A lamp whose block holds one bundle in every place, with all four banks mapped. -/
def lampAtWork (xs : List Slot) (x : Lamp) : Lamp :=
  { x with st := .running, code := List.replicate 8 (packBundle xs)
           ptrs := #v[some ⟨0, false, false⟩, some ⟨1, false, false⟩, some ⟨2, false, false⟩, some ⟨3, false, false⟩] }

/-- One lamp at work, and nothing else. -/
theorem witness_one_lamp : ∀ l : Fin 16,
    let s := base (withLamp l.val (lampAtWork []))
    OneLamp s (tileOf s 0) l.val ∧ awaitsStart (tileOf s 0) l.val = false ∧ requests (tileOf s 0) = [] ∧ BlocksRead (tileOf s 0) := by
  unfold OneLamp TileRuns BlocksRead; decide +kernel

/-- A bundle without a move in the middle and at the end of a block; a bundle with one move from lane numbers to v31; an
LSTART for that lamp alone. -/
theorem witness_LampSteps :
    let x (f : Lamp → Lamp) : Lamp := lampAt (tileOf (base (withLamp 15 (fun y => f (lampAtWork [] y)))) 0) 15
    let one := lampAtWork [⟨0, 0x028, 0x01F⟩] Lamp.reset
    let z : LStart := ⟨0x8000, 0, []⟩
    (x id).st = .running ∧ movesOf (x id) (x id).current = [] ∧ (x id).bundle ≠ 7 ∧
    (let y := x (fun y => { y with bundle := 7 })
     movesOf y y.current = [] ∧ y.bundle = 7 ∧ y.fetched = none ∧ y.drain = false) ∧
    movesOf one one.current = [⟨0, 0x28, 0x1F, false⟩] ∧ one.bank (0x1F / 8) = some ⟨3, false, false⟩ ∧ one.fills = [] ∧
    one.bundle ≠ 7 ∧ (∀ m, m < 16 → (z.mask.getLsbD m = true ↔ m = 15)) := by
  simp only []; decide +kernel

/-- The sources of a lamp at the ends of their ranges. -/
theorem witness_sources :
    let t := tileOf (base (withLamp 0 (lampAtWork []))) 0
    ∀ p ∈ [(0x00, (0 : V128)), (0x1F, 0), (0x20, BitVec.allOnes 128), (0x27, 0), (0x28, packLanes 32 [0, 1, 2, 3]), (0x29, 0),
      (0x2D, 0), (0x40, 0), (0x58, 0), (0x80, bcast32 0xFFFFFF80), (0x17F, bcast32 127)], SourceIs t 0 p.1 p.2 := by
  unfold SourceIs; simp only []; decide +kernel

/-- A lamp that waits on the link with an entry from its neighbour; a freeze that all results have left; a result that is
ready; a flash for STOPPED lamps. -/
theorem witness_other_lamp_steps :
    let e : LinkEntry := ⟨7, 0, 1, 0⟩
    let y : Lamp := { lampAtWork [⟨0, 0x02C, 0x000⟩] Lamp.reset with st := .blocked, wait := .linkRead, fifo := [e] }
    let o : InFlight := ⟨0, 0, 0, 0, some 0, 1, [(0, 5)], 0, false, none, [], false⟩
    let r := tileOf (base (withLamp 3 (fun x => { x with flight := [o] }))) 0
    let q := tileOf (base (fun t => { t with eng := { t.eng with flashQ := [⟨0x100, 0x8001⟩] } })) 0
    let f : Freeze := ⟨0, [1, 2], 0⟩
    movesOf y y.current = [⟨0, 0x2C, 0, false⟩] ∧ e.readableAt ≤ State.reset.cycle ∧ e.sender ≠ 0 ∧ f.since ≤ State.reset.cycle ∧
    (lampAt r 3).flight = [o] ∧ (lampAt r 3).paused = false ∧ o.access = none ∧ o.left = [] ∧ o.due ≤ State.reset.cycle ∧
    o.ready.any (fun n => decide (n ≤ State.reset.cycle)) = true ∧ (∀ p ∈ o.outs, p.1 < 32) ∧ (o.outs.map Prod.fst).Nodup ∧
    (∀ m, m < 16 → (lampAt r m).st ≠ .flashed ∧ (m ≠ 3 → (lampAt r m).flight = [])) ∧
    q.stFlash = none ∧ q.keeper.preempted = false ∧ q.eng.flashQ = [⟨0x100, 0x8001⟩] ∧
    (∀ m, m < 16 → (0x8001 : BitVec 16).getLsbD m = true → (lampAt q m).st = .stopped) := by
  simp only []; decide +kernel

/-- A command of job 7 from a descriptor, with output token 1. -/
def cmd7 (op : BitVec 7) (d0 d1 d2 d3 : W64) : KCmd := kcmdOf (base (descr d0 d1 d2 d3)) op 0 4 1 0 0

/-- A row command that has been accepted and checked. -/
def bankCmd (k : KCmd) : BankCmd := ⟨0, k, true, 0, 0, 0, [], none, none⟩

/-- A claim that waits for a loan that the counts permit; a DRAIN of rows 0 and 1 for a STOPPED lamp of group 0 that holds
the bank of its results. -/
theorem witness_GrantsAndDrainDispatch :
    let q : Request := ⟨.claim, 0, 2, 0, 0, some (0, true)⟩
    let y : Lamp := { lampAtWork [⟨0, 0x102, 0x3CA⟩] Lamp.reset with st := .blocked, wait := .claim, ptrs := Vector.replicate 4 none }
    let t := tileOf (base (fun t => withLamp 0 (fun _ => y) { t with loanQ := [q] })) 0
    let a := bankCmd (cmd7 0x76 0x20000 0x100 0 0)
    let w : WsPtr := ⟨0, false, false⟩
    let x : Lamp := { Lamp.reset with ptrs := vset Lamp.reset.ptrs 1 (some w) }
    let s := setLens (base (fun t => withLamp 0 (fun _ => x) { t with free := [1, 2, 3] })) 0
      { Lens.reset with accepted := [a] }
    let u := tileOf s 0
    movesOf y y.current = [⟨0, 0x102, 0x3CA, false⟩] ∧ destOf 0x3CA = .trig 7 .claim ∧
    (lane (bcast32 (BitVec.ofInt 32 ((0x102 : Int) - 0x100))) 32 0).toNat % 4 = q.bank ∧ vget y.ptrs 2 none = none ∧
    y.holdsLoan = false ∧ y.bundle ≠ 7 ∧ claimOk t 0 1 true = true ∧ t.takeQ = [] ∧ t.passQ = [] ∧
    clusterOf 0 = 0 ∧ posOf 0 = 0 ∧ tileAt 0 0 = 0 ∧ (lensOf s 0).accepted = [a] ∧ a.cmd.op = 0x76 ∧ a.pos < acRows a.cmd ∧
    (lensOf s 0).held = [] ∧ (lensOf s 0).bad = [] ∧ (lensOf s 0).rowOpAt ≤ s.cycle ∧ fld a.cmd.d1 32 2 = 0 ∧ x.st = .stopped ∧ x.bank 1 = some w ∧
    vget x.ptrs 2 none = none ∧ vget x.ptrs 3 none = none ∧ x.holdsLoan = false ∧ heldNow u 0 + 2 ≤ floorOf u 0 ∧ u.free.Nodup ∧
    2 ≤ (freeNow u).length ∧ w.block ∉ u.free ∧ (∀ i, slotOf (lensOf s 0) i = none) := by
  simp only []; decide +kernel

/-- An LMM of 32 by 16 by 128. -/
def lmm7 : KCmd := cmd7 0x70 0x10000000000000 (0x10002000000000 + 0x4000) 0x8010080 0

/-- An LRANK of 32 by 16 by 128. -/
def lrank7 : KCmd := cmd7 0x72 0x10000000000000 (0x10002000000000 + 0x4000) 0x10080 0

/-- A slot of the lens that holds a command. -/
def lensSlot (k : KCmd) (load end_ from_ : Option Nat) (step : Nat) (stepEnd : Option Nat) : LensSlot :=
  ⟨0, k, load, end_, from_, step, stepEnd, 0, 0, false, [], [], [], []⟩

/-- A ready compute command with credit and its bank; a load that ends; a computation that begins; a step of an LMM, and
the last step of a pair of an LRANK with an empty list. -/
theorem witness_LensSteps :
    let k := lmm7
    let t := tileOf (base (fun t => { t with eng := { t.eng with lensQ := [k] } })) 0
    let l : Lens := { Lens.reset with banks := [(0, ⟨.sum, 0, 0, none⟩)] }
    let r := setLens State.reset 0 { Lens.reset with banks := [(0, ⟨.rank, 0, 4, none⟩)] }
    (lensSlot k (some 0) none none 0 none).early = [] ∧ t.bad = [] ∧ l.bad = [] ∧ (∀ j, j < 2 → vget l.freeAt j 0 ≤ 0) ∧
    LensHeadIs t k [] ∧ isCompute k = true ∧ vget l.credits l.ptr 0 = 0 + 1 ∧ grantReason l l.ptr k = 0 ∧
    0 + loadClk k ≤ loadClk k + 1 ∧ lmRank k = false ∧ lmSparse k = false ∧ 0 + 1 < lmSteps k ∧ OwnCommand t k ∧
    lmRank lrank7 = true ∧ lmBnd lrank7 = false ∧ lmKs lrank7 = 2 ∧ lmSteps lrank7 = 2 ∧
    (∀ i ∈ blockIdx 0 (lmM lrank7), 1 ≤ (bankOfRow r 0 (outRow lrank7 i 0)).k ∧ (bankOfRow r 0 (outRow lrank7 i 0)).k ≤ 31 ∧
      bitsN (accWord r 0 (outRow lrank7 i 0) 63).toNat 0 6 ≤ (bankOfRow r 0 (outRow lrank7 i 0)).k) := by
  unfold LensHeadIs OwnCommand; simp only []; decide +kernel

/-- The words of the block of an LMM rise from one element to the next, so none comes twice. -/
theorem witness_lens_words :
    let xs := (blockIdx 0 (lmM lmm7)).flatMap (fun i => (blockIdx 0 (lmN lmm7)).map (fun j => outRow lmm7 i j * 64 + outWord j))
    xs.length = 32 * 16 ∧ (xs.zip xs.tail).all (fun p => decide (p.1 < p.2)) = true := by decide +kernel

/-- Bank and row commands that are ready: DRAIN, the allocation of ACC.ALLOC, ACC.CLR of a SUM and of a RANK row, ACC.LOAD,
ACC.FREE and ACC.OWN, with one row left and with more. -/
theorem witness_bank_commands :
    let d := cmd7 0x76 0x20000 0 0 0
    let n := cmd7 0x79 0x200 0 0 0
    let t := tileOf (base (fun t => { t with eng := { t.eng with lensQ := [d] } })) 0
    let u := tileOf (base (fun t => { t with eng := { t.eng with lensQ := [n] } })) 0
    let clr := bankCmd (cmd7 0x74 0x20000 0 0 0)
    let load := bankCmd (cmd7 0x73 0x20000 0x1000 0 0)
    let free := bankCmd (cmd7 0x77 0x100 0 0 0)
    LensHeadIs t d [] ∧ isCompute d = false ∧ d.op ≠ 0x79 ∧ cmdBanks d ≠ [] ∧ LensHeadIs u n [] ∧ n.op = 0x79 ∧
    clr.tile = 0 ∧ clr.checked = true ∧ clr.claim = none ∧ clr.sub = 0 ∧ OwnCommand t clr.cmd ∧ clr.cmd.op = 0x74 ∧
    clr.pos + 1 < acRows clr.cmd ∧ acC0 load.cmd + acWds load.cmd = 64 ∧ free.pos + 1 = fld free.cmd.d0 8 8 := by
  unfold LensHeadIs OwnCommand; simp only []; decide +kernel

/-- A copy that starts and two that end: a fill up to the top of the job's SRAM, a move of one row whose ranges touch. -/
theorem witness_CopyEngineSteps :
    let fill := cmd7 0x49 0x1EFFF000000000 16 0x0102030405060708 0
    let move := cmd7 0x40 0x101000001000 0x100000010 0 0
    let t := tileOf (base (fun t => { t with eng := { t.eng with copyQ := [fill] } })) 0
    let run (k : KCmd) : Tile := tileOf (base (fun t => { t with copyRun := some ⟨k, 0, 0, [], [], none, [], [], [], [], 0, 0⟩ })) 0
    t.copyRun = none ∧ t.stCopy = none ∧ t.keeper.debugHalt = false ∧ t.keeper.preempted = false ∧ t.eng.copyQ = [fill] ∧
    t.freezes = [] ∧ t.bad = [] ∧ t.failing = [] ∧ (run fill).ckpt = none ∧ (run fill).failing = [] ∧
    { (⟨fill, 0, 0, [], [], none, [], [], [], [], 0, 0⟩ : CopyRun) with fail := some (2, false) }.fail = some (2, false) ∧
    fill.station = false ∧ inputsSet t fill = true ∧ fill.op = 0x49 ∧ (run fill).copyRun = some ⟨fill, 0, 0, [], [], none, [], [], [], [], 0, 0⟩ ∧
    OwnCommand (run fill) fill ∧ cDst fill % 16 = 0 ∧ mvBytes fill % 16 = 0 ∧ move.op = 0x40 ∧ move.sub = 0 ∧ cN move = 1 ∧
    cDst move = cSrc move + 0x10 ∧ (cSrc move + mvBytes move ≤ cDst move ∨ cDst move + mvBytes move ≤ cSrc move) := by
  unfold OwnCommand; simp only []; decide +kernel

/-- Tile 0 of job 7 with one slot. -/
def oneSlot (n : Nat) (m : MSlot) (f : Tile → Tile) : State := base (fun t => f { t with eng := { t.eng with slots := [(n, m)] } })

/-- A send of `len` bytes to tile 1. -/
def sendSlot (len : Nat) : MSlot := { slot .waiting with kind := .send, len := len }

/-- A destination of a send whose header has left. -/
def sub : SubSend := ⟨[], 1, 0, .header, true, false, none, none, false, 0, 0, 0, none, 0, false⟩

/-- A packet in the inbox of a tile. -/
def arriving (p : Packet) (t : Tile) : Tile := { t with msg := { t.msg with inbox := [(0, p)] } }

/-- A send that starts, at the largest EAGER length and above it; one whose header is out, with each packet that may come
back; one whose retry is due; a stream of another package that may retire. -/
theorem witness_SenderEvents :
    let s (n : Nat) : State := oneSlot 127 (sendSlot n) id
    let limit (n : Nat) : Nat := fld (tileOf (s n) 0).ctrl.eagermax 0 6 * 256
    let out := { sendSlot 64 with st := .header, subs := [sub], payload := List.replicate 64 0 }
    let due := { out with subs := [{ sub with retryAt := some 0 }] }
    let z : SendStream := ⟨0x10000, 0, 7, 1, 0⟩
    (∀ n ∈ [2048, 2049], OnlySlot (tileOf (s n) 0) 127 (sendSlot n) ∧ (sendSlot n).st = .waiting ∧ (sendSlot n).subs = [] ∧
      (tileOf (s n) 0).msg.sends = [] ∧ slotInputs (tileOf (s n) 0) (sendSlot n) = true ∧ (sendSlot n).group ≠ 0xFFF ∧
      domsOf (s n) 0 (sendSlot n).peer = []) ∧
    2048 ≤ limit 2048 ∧ ¬ 2049 ≤ limit 2049 ∧
    (∀ k ∈ [PktKind.cts, .ack, .abort, .refuse, .stub, .nack],
      let p := { packet k 0 with len := 64 }
      let t := tileOf (oneSlot 127 out (arriving p)) 0
      OnlySlot t 127 out ∧ out.subs = [sub] ∧ sub.st = .header ∧ t.msg.inbox = [(0, p)] ∧ p.job = jobOf t ∧ p.group = out.group ∧
        p.src = sub.dst ∧ p.seq = sub.seq ∧ p.len ≤ out.payload.length) ∧
    due.st = .header ∧ due.payload.length ≤ 4096 ∧ nodeOf z.peer ≠ State.reset.ls.node ∧ z.open_ = 0 := by
  unfold OnlySlot; simp only []; decide +kernel

/-- The rest of the premises on a sender: an engine that takes messages, a send that has read nothing, a header that is not to
be sent again and raised no pending field; an SSEND before and after its CTS; an engine without DATA to inject. -/
theorem witness_more_of_the_sender :
    let t := tileOf (oneSlot 127 (sendSlot 64) id) 0
    t.msg.quiesced = false ∧ t.keeper.preempted = false ∧ t.bad = [] ∧ (sendSlot 64).early = [] ∧ sub.due = false ∧ sub.doms = [] ∧
    sub.acked = none ∧ t.msg.outq = [] ∧ sub.cts = none ∧ { sub with cts := some 0 }.cts ≠ none ∧ { sendSlot 64 with kind := .ssend }.kind = .ssend := by
  simp only []; decide +kernel

/-- The units of a message event: the first ranks that hold no engine, and those beside the lightship (R248). -/
theorem witness_units :
    [(0x420 : BitVec 16), 0x7FF, 0x801, 0xFFFF].all (fun e => decide (0x420 ≤ e.toNat) && decide (e.toNat ≠ 0x800)) = true := by
  decide +kernel

/-- The stream of tile 1 with a receive matched. -/
def stream1 : RecvStream := ⟨1, 0, 7, 1, [], false, [(0, 3)]⟩

/-- A receive that is posted, one that a whole EAGER message, a long one and an RTS match, one that nothing matches, one
that takes part of its DATA and all of it, one that is ORDERED, and a peer that leaves. -/
theorem witness_ReceiverEvents :
    let w := oneSlot 127 (slot .waiting) id
    let posted := slot .posted
    let data := { slot .data with src := 1, msgLen := 64, recPeer := 1, recTag := 5 }
    let at_ (m : MSlot) (p : Packet) (f : Tile → Tile) : Tile := tileOf (oneSlot 3 m (fun t => f (arriving p t))) 0
    let busy (t : Tile) : Tile := { t with msg := { t.msg with recvs := [stream1] } }
    OnlySlot (tileOf w 0) 127 (slot .waiting) ∧ slotInputs (tileOf w 0) (slot .waiting) = true ∧ ringMode (tileOf w 0) = 0 ∧
    (tileOf w 0).msg.hdrs = [] ∧
    (∀ p ∈ [packet .eager 64, packet .eager 65, { packet .rts 0 with len := 64 }],
      let t := at_ posted p id
      OnlySlot t 3 posted ∧ t.msg.inbox = [(0, p)] ∧ p.job = jobOf t ∧ fits posted p = true ∧ p.seq = 0 ∧ t.msg.recvs = [] ∧
        hasLeft (oneSlot 3 posted id) p.job 0 = false ∧ p.tree = [] ∧ 0 < Nat.min p.len posted.len) ∧
    fits posted { packet .rts 0 with tag := 6 } = false ∧
    (∀ n ∈ [63, 64],
      let p := packet .data n
      let t := at_ data p busy
      OnlySlot t 3 data ∧ data.got = [] ∧ t.msg.recvs = [stream1] ∧ stream1.peer = data.src ∧ stream1.group = data.group ∧
        stream1.job = data.job ∧ stream1.matched = [(data.seq, 3)] ∧ p.src = data.src ∧ p.seq = data.seq ∧
        p.offset + p.payload.length ≤ Nat.min data.msgLen data.len) ∧
    (packet .data 63).payload.length < Nat.min data.msgLen data.len ∧ (packet .data 64).payload.length = Nat.min data.msgLen data.len ∧
    data.ackEarly = false ∧ (slot .ordered).st = .ordered := by
  unfold OnlySlot; simp only []; decide +kernel

/-- Replay mode over a log entry without a wildcard. -/
theorem witness_replay :
    let t := tileOf (base (fun t => { t with ctrl := { t.ctrl with matchlog := 0x00000F0000000002 } })) 0
    ringMode t = 2 ∧ fld t.ctrl.matchlog 40 5 ≤ 15 ∧
    Mem.load t.sram (fld t.ctrl.matchlog 12 9 * 4096 + fld t.ctrl.matchlog 48 16 % 2 ^ fld t.ctrl.matchlog 40 5 * 16) 16 / 2 ^ 71 % 2 = 0 := by
  simp only []; decide +kernel

/-- One cell of a packet to a tile, at the south input of tile 17 in channel 2. -/
def oneCell (dst : W32) : Packet × Cell × State :=
  let p := { packet .ack 0 with dst := dst }
  let c : Cell := ⟨2, true, true, [], [], some p, 1, 0⟩
  (p, c, setRouter State.reset 17 { Router.reset with inBufs := [(2 * 4 + 2, [c])] })

/-- A packet that leaves at its tile and one that goes on east. -/
theorem witness_one_cell :
    OneCell (oneCell 17).2.2 17 10 (oneCell 17).2.1 (oneCell 17).1 ∧ OneCell (oneCell 18).2.2 17 10 (oneCell 18).2.1 (oneCell 18).1 := by
  constructor <;> (refine ⟨rfl, rfl, rfl, rfl, rfl, rfl, rfl, rfl, rfl, ?_, ?_, ?_, rfl, rfl, rfl, ?_, rfl, rfl⟩ <;> decide +kernel)

/-- The ways of those packets; a credit that is due; a head that is promoted; a head that escapes. -/
theorem witness_MeshAndLinkSteps :
    neighbour 17 (10 / 4) = some 33 ∧ localOf (oneCell 17).1.dst = 17 ∧
    nearer 17 (localOf (oneCell 18).1.dst % 16) (localOf (oneCell 18).1.dst % 256 / 16) = [1] ∧
    portNum .east = 1 ∧ neighbour 17 1 = some 18 ∧ 0 < meshFree (oneCell 18).2.2 17 1 2 ∧
    SMap.getD [(5, 1)] 5 0 = 0 + 1 ∧ 5 / 4 = portNum .east ∧ nodeKey (.tile 17) < 2048 ∧
    pktKey 10 (oneCell 18).2.1 = 10 + 128 ∧ (256 : Nat) ≤ (HeadAge.mk 0 256 none).age ∧ (HeadAge.mk 0 0 none).since + 4096 < 4097 := by
  decide +kernel

/-- A flit of sequence number `q` that has arrived. -/
def flitAt (q : BitVec 12) (tries : Nat) : Flit := ⟨q, ⟨0, true, false, [], [], some (packet .ack 0), 1, 0⟩, flitCrc q ⟨0, true, false, [], [], some (packet .ack 0), 1, 0⟩, 0, tries, 0⟩

/-- Flits in and out of sequence, before and after a replay request; replay buffers at the limit of tries; acknowledgements
by count and by time. -/
theorem witness_link_directions :
    let d (f : LinkDir → LinkDir) : LinkDir := f { LinkDir.reset with flight := [flitAt 0 0] }
    let b (n : Nat) : LinkDir := { LinkDir.reset with replay := [flitAt 4 n], wantReplay := some 4 }
    (d id).flight = flitAt 0 0 :: [] ∧ flitCrc (flitAt 0 0).seq (flitAt 0 0).cell = (flitAt 0 0).crc ∧
    (flitCrc 0 { (flitAt 0 0).cell with bytes := [1] } ≠ (flitAt 0 0).crc) ∧ (flitAt 0 0).arriveAt ≤ State.reset.cycle ∧ (flitAt 0 0).seq = (d id).expected ∧
    (flitAt 0 0).cell.tail = false ∧ (flitAt 0 0).seq ≠ (d (fun x => { x with expected := 0xFFF })).expected ∧
    (d id).discarding = false ∧ ((b 7).replay.head?).map (fun f => f.seq) = some 4 ∧ (∀ f ∈ (b 7).replay, f.tries < 8) ∧
    (∃ f ∈ (b 8).replay, 8 ≤ f.tries) ∧ 0 < (1 : Nat) ∧ LinkDir.reset.lastAck + 150 ≤ 150 ∧ (64 : Nat) ≤ 64 := by
  simp only []; decide +kernel

/-- A head that asks the sector in force, one that asks another at both ends of R415's range, and a dead time that ends. -/
theorem witness_TurnControllerSteps :
    let q (n : Nat) : TurnReq := ⟨n, 0, 0⟩
    let x (n : Nat) : Link := { Link.reset with qa := [q n] }
    let y : Link := { Link.reset with serving := some (q 4), deadEnd := 0 }
    (∀ n ∈ [8, 4, 12], (x n).serving = none ∧ (x n).st ≠ .down ∧ (x n).qa = [q n] ∧ (x n).qb = [] ∧
      (x n).lastEnd.all (fun k => decide (k + 3000 ≤ State.reset.cycle)) = true) ∧ (q 8).sector = (x 8).sector ∧
    (q 4).sector ≠ (x 4).sector ∧ 4 ≤ (q 4).sector ∧ (q 12).sector ≤ 12 ∧ y.serving = some (q 4) ∧ y.deadEnd ≤ State.reset.cycle := by
  simp only []; decide +kernel

/-- An arrival of a member of DOMB. -/
def arrival (r : TileId) (limit : Nat) (v : W32) : Arrival := ⟨r, 1, 0, limit, 0, [v], 0, 0, false⟩

/-- The domain of DOMB with both members arrived. -/
def bothHere (kind : Nat) : Domain :=
  { domOf (member id) 0 1 with kind := kind, arrivals := [arrival 0 5 1, arrival 1 0 2] }

/-- The state at clk `n` with one domain. -/
def withDomain (x : Domain) (n : Nat) : State := { member id with domains := [x], cycle := n }

/-- A vote of each kind whose members have arrived two windows ago, at level 3; an announcement that is due; a BAR that may
commit and one that is released; a domain whose time-out has come. -/
theorem witness_BeaconSteps :
    let arrived (s : State) (x : Domain) : Prop := ∀ r ∈ domTiles s x, ∃ a ∈ x.arrivals, a.tile.val = r ∧ a.clk ≤ s.cycle
    let ann : Announce := ⟨0, 0, 7⟩
    let part : BeaconPart := ⟨0, 1, 0, 0, 7, 0, 0, none, 0, false⟩
    let d := { domOf (member id) 0 1 with anns := [ann], parts := [part] }
    (∀ k ∈ [3, 8], arrived (withDomain (bothHere k) 64) (bothHere k)) ∧ domTiles (withDomain (bothHere 3) 64) (bothHere 3) = [0, 1] ∧
    (∀ a ∈ (bothHere 3).arrivals, a.window + 2 ≤ 64 / 32 ∧ a.values.length = 1) ∧ (bothHere 3).broken = false ∧
    (bothHere 3).anns = [] ∧ (bothHere 3).barx = [] ∧ (bothHere 3).parts = [] ∧ domLevel (bothHere 3).shape ≠ 4 ∧
    part.window = ann.window ∧ ann.window + 2 ≤ 64 / 32 ∧ jobOf (tileOf (withDomain d 64) part.tile.val) = d.job ∧
    arrived (withDomain (bothHere 1) 0) (bothHere 1) ∧ (bothHere 1).commit = none ∧ (bothHere 1).bsp = false ∧ (bothHere 1).reg < 4 ∧
    ((bothHere 1).arrivals.map (fun a => a.tile)).Nodup ∧ 0 + 40 ≤ (withDomain (bothHere 1) 40).cycle ∧
    jobOf (tileOf (withDomain (bothHere 1) 0) 0) = 7 ∧ (bothHere 1).job = 7 ∧
    (∃ a ∈ (bothHere 1).arrivals, a.limit ≠ 0 ∧ a.clk + a.limit ≤ (withDomain (bothHere 1) 5).cycle) ∧ (bothHere 1).kind ≠ 2 := by
  simp only []; decide +kernel

/-- A request of two rows of 8 bytes at the start of window 0, replies to tile 0 with tag 5; destination 2048 of window 0. -/
def reqBytes (op : Nat) (idx : List Byte) : List Byte :=
  leBytes 8 op ++ leBytes 8 0 ++ leBytes 8 (2 + 8 * 2 ^ 32) ++ leBytes 8 8 ++ leBytes 8 (5 * 2 ^ 32) ++ leBytes 8 0 ++
    leBytes 8 2048 ++ leBytes 8 0 ++ idx

/-- A request of tile 0 of job 7. -/
def reqOf (op : Nat) (idx : List Byte) : ServReq := ⟨0, 7, reqBytes op idx, none, 0, none, true⟩

/-- A window of one page of stack 0 with all rights. -/
def onePage : W64 := 0xB808000001000000

/-- Server 31 with one active request of job 7, whose window 0 is `w`. -/
def serving (w : W64) (q : ServReq) (slots : SMap MSlot) : State :=
  setServer (withJob { job7 with cur := w :: List.replicate 63 0 }) 31
    { Server.reset with active := [q], eng := { EngineCtx.reset with slots := slots } }

/-- Requests of each opcode that pass the checks, one that fails them, and their rows. -/
theorem witness_ServerSteps :
    let q (op : Nat) : ServReq := reqOf op (if op = 2 then leBytes 8 (2 ^ 32) else [])
    let ok (op : Nat) : Bool :=
      replyOk (serving onePage (q op) []) (q op) && decide (rqStatus (serving onePage (q op) []) (q op) = 0) &&
      decide (rqStatus (serving 0 (q op) []) (q op) = 15) && decide (rqOp (q op).bytes = op) && decide (rqConv (q op).bytes = 0) &&
      (tableFor (serving onePage (q op) []) (q op)).isSome && decide (rqRowOffsets (q op).bytes = [0, 8]) &&
      decide (rqRowBytes (q op).bytes = 8)
    let bad : ServReq := ⟨0, 7, leBytes 8 0, none, 0, none, false⟩
    [0, 1, 2, 3, 4].all ok = true ∧ (∀ l : Fin 12, (linkOf (serving onePage (q 0) []) l.val).st ≠ .down) ∧ (q 0).checked = true ∧
    (q 0).recv = none ∧ replyOk (serving onePage bad []) bad = false ∧ rqDstOffset (q 4).bytes = 2048 ∧
    8 % AddTy.f32.bytes = 0 ∧
    upTo 16 (fun i => hbmAddr onePage i) = List.range 16 ∧ upTo 16 (fun i => hbmAddr onePage (2048 + i)) = upTo 16 (2048 + ·) := by
  simp only []; decide +kernel

/-- A WRITE and a REDUCE whose data has come whole. -/
theorem witness_server_data :
    let m : MSlot := { slot .complete with len := 16, msgLen := 16, dlvLen := 16 }
    [1, 3].all (fun op =>
      let q := { reqOf op [] with slot := some 9 }
      let x := serverOf (serving onePage q [(9, m)]) 31
      x.active == [q] && SMap.find x.eng.slots 9 == some m && (tableFor (serving onePage q [(9, m)]) q).isSome) = true ∧
    m.kind = .recv ∧ m.st = .complete ∧ m.status = 0 ∧ m.dlvLen = m.len := by
  simp only []; decide +kernel

/-- A WINSET that may and one that may not become a window, a WINCOMMIT that may be announced, two windows later, an old
table that is free. -/
theorem witness_WindowAndBootSteps :
    let z : WinsetReq := ⟨0, 63, onePage, 1, false, 0⟩
    let j := { job7 with winsets := [z], allot := [(0, 0, 64)] }
    let s := withJob j
    let c : CommitReq := ⟨0, 0, 0⟩
    let k := { job7 with commits := [c] }
    s.ls.jobs[(0 : Fin 4)] = some j ∧ j.id = jobOf (tileOf s 0) ∧ (tileOf s 0).parked = none ∧ (63 : Nat) < j.staged.length ∧
    winOk j j.staged 63 onePage = true ∧ winOk job7 job7.staged 63 onePage = false ∧ k.announced = none ∧ k.old = none ∧
    k.winsets = [] ∧ 0 + 2 ≤ (256 : Nat) / 128 ∧ s.servers = [] ∧ (∀ r ∈ jobTiles s j.id, slotList s r = []) := by
  simp only []; decide +kernel

/-- A tile with an image that its child has not, a keeper that starts, and done words that may go up. -/
theorem witness_boot_and_done :
    let j := { job7 with st := .loading }
    let s := modTile (withJob j) 0 (fun t => { t with imageSent := 0 })
    let s := modTile s 1 (fun t => { t with imageDone := false, keeper := Keeper.reset, image := [1, 2, 3], entry := 4 })
    let u := tileOf (modTile s 1 (fun t => { t with imageDone := true })) 1
    let leaf := { job7 with words := [(1, 1, 0x0001000100000000)] }
    let root := { job7 with words := [(0, 0, 0x0001000100000000), (0, 1, 0x0003000100000001)], sent := [1] }
    liveJob s (jobOf (tileOf s 0)) = some j ∧ (tileOf s 0).imageDone = true ∧ (childrenOf j 0)[(tileOf s 0).imageSent]? = some 1 ∧
    childrenOf j 0 = [1] ∧ (tileOf s 1).imageDone = false ∧ u.imageDone = true ∧ u.keeper.started = false ∧ j.st = .loading ∧
    liveJobs (withJob leaf) = [leaf] ∧ 1 ∈ childrenOf leaf 0 ∧ 1 ∉ leaf.sent ∧ wordsIn leaf 1 = true ∧
    0 ∈ childrenOf root 0x800 ∧ 0 ∉ root.sent ∧ wordsIn root 0 = true ∧
    wordsIn { root with words := root.words ++ [(0x800, 0, 5)], sent := [1, 0] } 0x800 = true := by
  simp only []; decide +kernel

/-- A package whose lightship serves host 0xFFFF_0000. -/
def hosted (s : State) : State := { s with ls := { s.ls with hosts := [0xFFFF0000] } }

/-- The image of one role with one word of code, placed on tile 2. -/
def image1 : List Byte :=
  leBytes 8 (0x4C414359 + 1 * 2 ^ 32 + 2 * 2 ^ 48) ++ leBytes 8 1 ++ leBytes 8 136 ++ leBytes 8 0 ++
    leBytes 32 0x711e20ede33f0cd67fcaaaa98885f9487bab7cd5e254b8da6a462267af068325 ++
    leBytes 16 (1 + 96 * 2 ^ 64 + 32 * 2 ^ 96) ++ leBytes 16 (2 + 128 * 2 ^ 64 + 8 * 2 ^ 96) ++
    leBytes 32 (4 * 2 ^ 160 + 0x62000000 * 2 ^ 192) ++ leBytes 8 0

/-- The LOAD payload with that image and the first cluster of die 0. -/
def load1 : List Byte := leBytes 8 1 ++ leBytes 8 0 ++ image1

/-- A LOAD that passes every check, and one that does not. -/
theorem witness_load :
    let s := hosted State.reset
    (0xFFFF0000 : W32) ∈ s.ls.hosts ∧ loadReason s 7 load1 = 0 ∧ loadReason s 7 [] ≠ 0 ∧
    (blockers s 7 (partClusters (rectsOf load1))).isEmpty = true ∧ s.ls.deferred.isEmpty = true := by
  simp only []; decide +kernel

/-- Jobs that may be parked, resumed, halted, ended and asked about; a halted tile; a tile map, dies that are ONLINE. -/
theorem witness_ManagementRequests :
    let s := hosted (withJob job7)
    let parked := { job7 with st := .parked }
    let p := hosted (withJob parked)
    let h := hosted (base (fun t => { t with keeper := { t.keeper with debugHalt := true } }))
    let c : MgmtCmd := ⟨0xFFFF0000, 0, 7, .status⟩
    let busy := { s with ls := { s.ls with deferred := [.request { c with tag := 1 }] } }
    serveBusy busy (.request c) = true ∧ Duty.request c ∉ busy.ls.deferred ∧ serveBusy s (.request c) = false ∧
    roomToPark s job7 = true ∧ job7.toAck = [] ∧
    Duty.request c ∈ busy.ls.deferred ++ [Duty.request c] ∧
    (0x10000 : W32) ∉ s.ls.hosts ∧ (liveJob s 7).isSome = true ∧ (room s (partSize job7 * 1024)).isSome = true ∧
    (liveJob p 7).isSome = true ∧ (blockers p 7 (partClusters parked.rects)).isEmpty = true ∧ jobTiles s 7 = [0, 1] ∧
    (tileOf s 0).duplex ≠ .follower ∧ s.ls.hot = [] ∧ (liveJobs s).length = 1 ∧ (job7.placed.map (fun p => p.rank)).Nodup ∧
    (∀ q ∈ job7.placed, q.duplex = false) ∧ jobOf (tileOf s 1) = 7 ∧ (liveJob s 8).isNone = true ∧ (jobById s 7).isSome = true ∧
    (tileOf h 0).keeper.debugHalt = true ∧ (tileOf s 1023).duplex = .solo ∧ s.ls.leaving = [] ∧
    s.ls.dies[(0 : Fin 4)] = .online ∧ s.ls.dies[(3 : Fin 4)] = .online := by
  simp only []; decide +kernel

/-- A package without a live job and one with one job on a single tile; samples and duties at the bounds. -/
theorem witness_FailuresAndPower :
    let s := State.reset
    let j := { job7 with placed := [⟨0x3FF, 0, false, 1⟩], boot := [(0x800, [0x3FF])] }
    s.ls.deferred = [] ∧ (liveJobs s).isEmpty = true ∧ s.ls.leaving = [] ∧ (tileOf s 0x3FF).duplex ≠ .follower ∧
    (∀ d : Fin 4, s.ls.dies[d] = .online) ∧ (liveJobs (withJob j)).length = 1 ∧ (withJob j).servers = [] ∧ j.left = [] ∧
    j.words = [] ∧ j.restore = false ∧ j.cur.all (fun w => touches 3 w == false) = true ∧ 0x3FF / 256 = 3 ∧
    (∀ n ∈ [0, 99, 100], (List.replicate n 3500000).length ≤ 100) ∧
    3600000 * 1 < sumN [3600001] ∧ sumN [3399999] < 3400000 * 1 ∧ 3400000 * 2 ≤ sumN [3400000, 3400000] ∧
    sumN [3600000, 3600000] ≤ 3600000 * 2 ∧ 115 ≤ 115 ∧ 114 < 115 ∧ 95 ≤ 95 := by
  simp only []; decide +kernel

/-- Ports in each state, wired, with frames that are good, of the wrong counter and of the wrong tag, and one on the wire. -/
theorem witness_PortsAndBoardTest :
    let st (x : LockState) (c n : Nat) : State :=
      { State.reset with ports := vset State.reset.ports 9 { PortSt.reset with st := x, keys := true, consec := c, highest := 1
                                                                               txCount := n } }
    let good : Frame := { frameOf (packet .ack 0) with counter := 1 }
    (Machine.portOf State.reset 9).st = .unlocked ∧ portWired State.reset 8 = true ∧ (Machine.portOf State.reset 9).config = none ∧
    (∀ x ∈ [LockState.locked, .run, .error], (Machine.portOf (st x 0 0) 9).st = x ∧ (Machine.portOf (st x 0 0) 9).wire = []) ∧
    (Machine.portOf (st .run 14 0) 9).consec < 15 ∧ 15 ≤ (Machine.portOf (st .run 15 0) 9).consec ∧ good.tagOk = true ∧
    (Machine.portOf (st .run 0 0) 9).highest ≤ good.counter ∧ (frameOf (packet .ack 0)).counter < (Machine.portOf (st .run 0 0) 9).highest ∧
    good.pkt.all (fun p => p.tree.isEmpty && nodeOf p.dst == State.reset.ls.node) = true ∧ (Machine.portOf (st .run 0 0) 9).keys = true ∧
    (Machine.portOf (st .run 0 0) 9).keyAt + 2 ^ 32 ≤ (Machine.portOf (st .run 0 (2 ^ 32)) 9).txCount := by
  simp only []; decide +kernel

/-- Tile 0 about to run a word: the agenda names its keeper. -/
def about (w : W32) (f : Tile → Tile) : State := modTile (State.reset.withFetchWord 32 w.toNat) 0 f

/-- An instruction, an illegal word, a fetch out of bounds and a waiting instruction, each due. -/
theorem witness_StepRunsTheDecodedInstruction :
    let ready (s : State) : Bool :=
      let t := { s with agenda := [], focus := 0 }
      let k := (cur t).keeper
      s.agenda == [.keeper 0] && k.started && !k.debugHalt && !(cur t).mismatch && (cur t).duplex != .follower &&
        decide (k.issueAt ≤ s.cycle) && (dueTrap (cur t)).isNone && !k.halted
    let a := about 0x04100030 id
    let far := about 0 (fun t => { t with keeper := { t.keeper with pc := 0x1F0000 } })
    let wait := about 0 (fun t => { t with keeper := { t.keeper with waiting := some (.twait 1) } })
    let q : State := { State.reset with agenda := [.clk 1] }
    [a, about 0 id, far, wait].all ready = true ∧ fetchWord (cur a) = 0x04100030 ∧
    mayIssue { a with agenda := [] } (.addi 1 0 48) = true ∧ mayIssue (about 0 id) (.illegal 0) = true ∧
    inBounds (cur a) false (cur a).keeper.pc.toNat 4 = true ∧ inBounds (cur far) false 0x1F0000 4 = false ∧
    mayIssue far .fetchSramBound = true ∧ (cur wait).keeper.waiting.isSome = true ∧
    (urgentMove { q with agenda := [] }).isNone = true ∧ q.cycle % 1500000 ≠ 1499999 := by
  simp only []; decide +kernel

/-- A keeper that chooses a store, put off to the end of the clk, and an addition, done at once; one whose store is to come. -/
theorem witness_choices :
    let at_ (w : W32) : State := { about w id with agenda := [.choose 0] }
    let here (s : State) : State := { s with agenda := [] }
    let k (s : State) : Keeper := (cur (here s)).keeper
    let store := at_ 0x34308000
    let add := at_ 0x04100030
    encode (.sw 3 1 0) = some 0x34308000 ∧ fetchWord (cur (here store)) = 0x34308000 ∧ fetchWord (cur (here add)) = 0x04100030 ∧
    regsReady (here store) (.sw 3 1 0) = true ∧ (putsOff (here store) (.sw 3 1 0) && takesEffect (.sw 3 1 0) (here store)) = true ∧
    (putsOff (here add) (.addi 1 0 48) && takesEffect (.addi 1 0 48) (here add)) = false ∧
    (k store).started = true ∧ (k store).late.isNone = true ∧
    (let s := setLate (some (.sw 3 1 0)) (here store)
     ((cur s).keeper.late == some (.sw 3 1 0)) = true ∧ mayIssue (setLate none s) (.sw 3 1 0) = true) := by
  simp only []; decide +kernel

/-- Words at the ends of the ranges of unassigned opcodes, and the all-zero word where the keeper fetches. -/
theorem witness_UnassignedOpcodesAreIllegal :
    [0, 0x0C, 0x0F, 0x1D, 0x1F, 0x29, 0x2F, 0x32, 0x37, 0x3D, 0x3F, 0x4F, 0x59, 0x5F, 0x6C, 0x6F, 0x7B, 0x7F].all
      (fun op => ((BitVec.ofNat 32 (op * 2 ^ 25 + 5)).extractLsb' 25 7).toNat == op) = true ∧
    inBounds (cur State.reset) (cur State.reset).keeper.station (cur State.reset).keeper.pc.toNat 4 = true ∧
    fetchWord (cur State.reset) = 0 := by decide +kernel

/-- An instruction that has a word, a trigger, and the eight slots of a bundle. -/
theorem witness_DecodeInvertsEncode :
    encode (.addi 1 0 48) = some 0x04100030 ∧ portOf .signal = some 0x2B ∧
    (List.replicate 8 (⟨0, 0x001, 0x048⟩ : Slot)).length = 8 := by decide +kernel

/-- The package at reset takes a step. -/
theorem witness_StepsKeepHbmCanonical : State.reset.HbmWf ∧ ∃ t, step State.reset = .next t := ⟨rfl, _, rfl⟩
/-! ## More states that meet hypotheses -/

/-- LSWAP during a pre-emption that has stopped a running lamp, and with a lamp at work otherwise. -/
theorem witness_LSWAP :
    let busy (x : Bool) : State := tile0 (fun t => atSt { withLamp 15 (fun y => { y with st := .running }) t with lampsStopped := x })
    (cur (busy true)).keeper.station = true ∧ (cur (busy true)).lampsStopped = true ∧ (cur (busy false)).lampsStopped = false ∧
    (cur (busy false)).keeper.station = true ∧ (lampAt (cur (busy false)) 15).ended = false := by
  simp only []; decide +kernel

/-- Selectors of each item at its first and last index, of the units 16 and 17, and of no item; a lamp with a fetched block, a pass of a
REP, entries of its link and results under way. -/
theorem witness_lamp_items :
    let sel (u item idx : Nat) : W64 := BitVec.ofNat 64 (u + item * 2 ^ 8 + idx * 2 ^ 16)
    let at_ (u item idx : Nat) : State := tile0 (withK [(1, sel u item idx)])
    let o : InFlight := ⟨0, 5, 0, 7, some 7, 4, [], 0, false, none, [], false⟩
    let s := tile0 (withLamp 3 (fun x => { x with flight := [o, { o with due := 300 }], rep := some ⟨0, 0, 0, 0, 0, []⟩ }))
    let x := lampAt (cur s) 3
    [(0, 0x02, 0), (15, 0x0B, 0), (0, 0x10, 63), (0, 0x12, 3), (0, 0x13, 7), (16, 0, 0), (16, 1, 0), (17, 0, 0), (17, 1, 3), (17, 2, 0),
      (0, 0x0C, 0), (0, 0x14, 0), (0, 0x0B, 1), (0, 0x11, 64), (0, 0x12, 4), (0, 0x13, 8), (16, 2, 0), (16, 0, 1), (17, 3, 0), (17, 1, 4),
      (17, 0, 1), (18, 0, 0), (31, 255, 255)].all (fun p => kreg (at_ p.1 p.2.1 p.2.2) 1 == sel p.1 p.2.1 p.2.2) = true ∧
    x.paused = false ∧ (x.flight.filter (fun y => y.unit == 5)).map InFlight.due = [7, 300] ∧
    vget (lampAt (cur (tile0 (withLamp 0 (fun x => { x with ptrs := vset x.ptrs 3 (some ⟨255, true, false⟩) })))) 0).ptrs 3 none =
      some ⟨255, true, false⟩ ∧ (vreg (cur (tile0 (withLamp 0 (fun x => { x with ptrs := vset x.ptrs 0 (some ⟨0, false, false⟩) })))) 0 7).isSome = true ∧
    vreg (cur State.reset) 0 0 = none ∧ vget x.ptrs 0 none = none ∧ x.st = .stopped := by
  simp only []; decide +kernel

/-- CANCEL of a completed receive, of one in DATA matched to an RTS and to an eager message, and of a started send. -/
theorem witness_CANCEL :
    let s (m : MSlot) : State := base (fun t => withK [(1, 3)] { t with eng := { t.eng with slots := [(3, m)] } })
    let data := { slot .data with mkind := .rts }
    (∀ m ∈ [slot .complete, slot .ordered, { sendSlot 8 with st := .header }, { sendSlot 8 with st := .data }, slot .data, data],
      SMap.find (cur (s m)).eng.slots (fld (kreg (s m) 1) 0 7) = some m ∧ m.job = jobOf (cur (s m))) ∧
    ({ sendSlot 8 with st := .data } : MSlot).isSend = true ∧ (slot .data).mkind = .eager ∧ data.mkind ≠ .eager ∧
    data.isSend = false ∧ data.units = none := by
  simp only []; decide +kernel

/-- SCAN at a register of level 0, with a descriptor at k29, and with its output token among its inputs; lens and copy commands that
fail their issue checks. -/
theorem witness_issue_faults :
    let s := tile0 (fun t => descr 0 0 0 (1 <<< 58) { t with ctrl := { t.ctrl with dom := #v[0, 0x1000000000000000, 0, 0] } })
    let bad (x : W64) : State := tile0 (descr x x x 0)
    fld (vget (cur s).ctrl.dom (0 : BitVec 2).toNat 0) 59 3 = 0 ∧ fld (vget (cur s).ctrl.dom (1 : BitVec 2).toNat 0) 59 3 ≠ 0 ∧
    28 < (29 : BitVec 5).toNat ∧ (1 : Tok) = (kreg s (4 + 3)).extractLsb' 58 6 ∧
    (∀ p ∈ lensRows 1 4 2 3, KcChecks (bad 0xFFFFFFFFFFFFFFFF) p.2.1 1 4 2 3 ∧
      lensIssueReason (cur (bad 0xFFFFFFFFFFFFFFFF)) (kcmdOf (bad 0xFFFFFFFFFFFFFFFF) p.2.1 p.2.2 4 1 2 3) ≠ 0) ∧
    (∀ p ∈ copyRows 1 4 2 3 1 1 1, p.2.1 = 0x58 ∨ (KcChecks (bad 0xFFFFFFFFFFFFFFFF) p.2.1 1 4 2 3 ∧
      copyIssueReason (cur (bad 0xFFFFFFFFFFFFFFFF)) (kcmdOf (bad 0xFFFFFFFFFFFFFFFF) p.2.1 p.2.2 4 1 2 3) ≠ 0)) ∧
    (cur (bad 0)).parked = none ∧ bit (cur (bad 0)).eng.lensFault 63 = false := by
  unfold KcChecks; simp only []; decide +kernel

/-- The opcodes of the lamp-bank commands at station level, with a descriptor that fails. -/
theorem witness_LSPILL_fault :
    let s := tile0 (fun t => atSt (descr 0xFFFFFFFFFFFFFFFF 0 0 0 t))
    ∀ p ∈ copyRows 1 4 2 3 1 1 1, p.2.1 = 0x58 → copyIssueReason (cur s) (kcmdOf s p.2.1 p.2.2 4 1 2 3) ≠ 0 := by
  simp only []; decide +kernel

/-! ### Float results -/

/-- Operands of each clause on a lane: a NaN first, 0 times infinity, infinities of opposite and of equal sign, sums that are and are not
zero, and the values of `sf`. -/
theorem witness_FloatResults :
    let one : FVal := .fin false 1 0
    let ops (z : Option FVal) (x y : FVal) : List FVal := z.toList ++ [x, y]
    (ops (some one) (.nan true 5 23 true) (.nan false 1 23 false)).find? FVal.isNan = some (.nan true 5 23 true) ∧
    (∀ v ∈ ops none (.inf true) one, v.isNan = false) ∧ (FVal.fin true 0 0).isZero = true ∧ (FVal.inf false).isInf = true ∧
    IsNum one (finRat false 1 0) ∧ IsNum (.fin true 3 (-1)) (finRat true 3 (-1)) ∧ finRat false 1 0 * finRat true 3 (-1) ≠ 0 ∧
    finRat false 1 0 * finRat false 1 0 + finRat true 1 0 = 0 ∧ finRat true 3 (-1) < 0 ∧ finRat false 1 1 = twoPow 1 ∧
    fp32.decodeDaz false 0x7FC00000 = .nan false 0x400000 23 false ∧ fp32.decodeDaz false 0xFF800000 = .inf true ∧
    (fp32.decodeDaz true 0x80000001).isZero = true ∧ fp32.decodeDaz false 0x40000000 = .fin false 8388608 (-22) ∧
    finRat false 8388608 (-22) = 2 ∧ fp32.decode 1 = .fin false 1 fp32.eminQ := by
  refine ⟨by decide, by decide, by decide, by decide, ⟨_, _, _, rfl, rfl⟩, ⟨_, _, _, rfl, rfl⟩, by decide +kernel, by decide +kernel,
    by decide +kernel, by decide +kernel, by decide +kernel, by decide +kernel, by decide +kernel, by decide +kernel,
    by decide +kernel, by decide +kernel⟩

/-- The rounding of 2^24 + 1 to FP32 under RNE is the even neighbour, exactly between the two (R46). -/
theorem witness_rounding : (fp32.roundFin .rne false 16777217 0) = (some 0x4B800000, 16) ∧ (fp32.roundFin .rup false 16777217 0).1 = some 0x4B800001 := by
  decide +kernel

/-- The package at reset takes a step, its SRAM in canonical form. -/
theorem witness_StepsKeepSramCanonical : State.reset.SramWf ∧ ∃ t, step State.reset = .next t := ⟨fun _ => rfl, _, rfl⟩
/-! ### Copies that end -/

/-- A copy command of job 7 about to complete. -/
def runOf (k : KCmd) : CopyRun := ⟨k, 0, 0, [], [], none, [], [], [], [], 0, 0⟩

/-- Tile 0 with that command running. -/
def copying (k : KCmd) : State := base (fun t => { t with copyRun := some (runOf k) })

/-- CP.MOVE, CP.GATHER, CP.SCATTER, CP.PLANE, CP.UNPLANE, CP.PX8, CP.CVT, CP.ACC, CP.TOPK, CP.FILL and LSPILL from 0x1000 to 0x8000, with
a list, side or scale items at 0x4000. -/
def copies : List KCmd :=
  let d0 : W64 := 0x800000001000
  [cmd7 0x40 d0 0x200000010 0x1000000020 0, cmd7 0x41 d0 0x200004000 0x1000000010 0, cmd7 0x42 d0 0x200004000 0x1000000010 0,
   cmd7 0x43 d0 0x200004000 0x500800080 0x100, cmd7 0x44 d0 0x200004000 0x500800080 0x100, cmd7 0x45 d0 0x100004000 0 0,
   { cmd7 0x45 d0 0x100004000 0 0 with sub := 1 }, { cmd7 0x45 d0 0x100004000 0 0 with sub := 2 },
   { cmd7 0x45 d0 0x100004000 0 0 with sub := 3 }, cmd7 0x46 d0 8 0x57 0, cmd7 0x47 0x800000010000 0x100 0xE00010 0,
   cmd7 0x48 0x800000010000 0x20100 16 0, cmd7 0x49 d0 16 0x0102030405060708 0, cmd7 0x58 d0 0 0 0,
   { cmd7 0x58 d0 0 0 0 with sub := 1 }]

/-- Each of them is about to complete: nothing read or written early, nothing bad, no checkpoint. -/
theorem witness_copies_end :
    copies.all (fun k =>
      let s := copying k
      let t := tileOf s 0
      let x := runOf k
      t.copyRun == some x && x.fail.isNone && decide (x.doneAt ≤ s.cycle) && !t.keeper.debugHalt && t.freezes.isEmpty &&
        t.failing.isEmpty && t.bad.isEmpty && t.badWs.isEmpty && (lensOf s (clusterOf 0)).bad.isEmpty && t.ckpt.isNone &&
        k.job == jobOf t && t.parked.isNone && x.early.isEmpty && x.wrote.isEmpty && x.blocks.isEmpty) = true := by
  decide +kernel

/-- Rows, formats, lists and streams as their clauses ask, the ranges apart from each other. -/
theorem witness_CopyOfRowsAndIndexedRows :
    let k (n : Nat) : KCmd := copies.getD n lmm7
    let m (n : Nat) : Mem := seenBy (tileOf (copying (k n)) 0) (runOf (k n))
    ((k 0).op = 0x40 ∧ cSrc (k 0) % 16 = 0 ∧ cDst (k 0) % 16 = 0 ∧ mvBytes (k 0) = 16 ∧ mvSst (k 0) = 32 ∧ mvDst (k 0) = 16 ∧
      cN (k 0) = 2 ∧ (k 0).sub = 0 ∧ cSrc (k 0) + 64 ≤ cDst (k 0)) ∧
    (∀ n ∈ [1, 2], cN (k n) = 2 ∧ mvSst (k n) = 16 ∧ mvDst (k n) = 16 ∧ cSrc (k n) + 32 ≤ cLo1 (k n) ∧ cLo1 (k n) + 8 ≤ cDst (k n) ∧
      (∀ i, i < 2 → Mem.load (m n) (cLo1 (k n) + 4 * i) 4 = 0) ∧
      (∀ a ∈ [cSrc (k n), cDst (k n)], inBounds (tileOf (copying (k n)) 0) (k n).station a 16 = true) ∧
      inBounds (tileOf (copying (k n)) 0) (k n).station (cDst (k n) + 2 ^ 30 * 16) 16 = false) ∧
    (k 12).op = 0x49 ∧ cDst (k 12) % 16 = 0 ∧ mvBytes (k 12) % 16 = 0 := by
  simp only []; decide +kernel

/-- No byte that the CP.MOVE of two rows writes is one that it reads, and no two bytes of one row are the same. -/
theorem witness_rows_apart :
    let src (i j : Nat) : Nat := 0x1000 + i * 32 + j
    let dst (i j : Nat) : Nat := 0x8000 + i * 16 + j
    (∀ i j i' j', i < 2 → j < 16 → i' < 2 → j' < 16 → dst i j ≠ src i' j') ∧
    (∀ i j j', i < 2 → j < 16 → j' < 16 → dst i j = dst i j' → j = j') := by
  simp only []; constructor <;> intros <;> omega

/-- The same for the conversions. -/
theorem witness_CopyConversionsAndSpills :
    let k (n : Nat) : KCmd := copies.getD n lmm7
    let m (n : Nat) : Mem := seenBy (tileOf (copying (k n)) 0) (runOf (k n))
    (∀ n ∈ [3, 4], planeFmt (plFmt (k n)) = some (8, 2, 16) ∧ fmtCode (plFmt (k n)) = some (.flt bf16) ∧ plK (k n) = 128 ∧ plKs (k n) = 128 ∧
      plPitch (k n) = 256 ∧ cSrc (k n) % 16 = 0 ∧ cDst (k n) % 16 = 0 ∧ cN (k n) = 2 ∧ cSrc (k n) + 512 ≤ cLo1 (k n) ∧
      cLo1 (k n) + 512 ≤ cDst (k n)) ∧
    (∀ n ∈ [5, 6, 7, 8], (k n).op = 0x45 ∧ cDst (k n) % 16 = 0 ∧ cN (k n) = 1 ∧ cLo1 (k n) + 2 ≤ cDst (k n)) ∧
    [5, 6, 7, 8].map (fun n => (k n).sub) = [0, 1, 2, 3] ∧ (blockAt (m 6) (k 6) 12 0).isSome = true ∧
    blockAt (upTo 64 (fun i => (0x1000 + i, (0xFF : Byte)))) (k 6) 12 0 = none ∧ (encbfBlocks (m 8) (k 8) 1 0).length = 1 ∧
    fmtCode (cvSf (k 9)) = some (.flt fp32) ∧ fmtCode (cvDf (k 9)) = some (.flt bf16) ∧ cvN (k 9) = 8 ∧
    (convElem (k 9) (.flt fp32) (.flt bf16) 0).trap = false ∧
    (convElem { k 9 with cvt := 3 } (.flt fp32) (.flt bf16) 0x7F7FFFFF).trap = true ∧
    (∀ n ∈ [10, 11], acC0 (k n) + acWds (k n) ≤ 64 ∧ 0 < acWds (k n) ∧ acRows (k n) = 1 ∧ cDst (k n) % 16 = 0 ∧
      (bankOfRow (copying (k n)) 0 (acFirst (k n))).st ≠ .rank) ∧
    fmtCode (acDf (k 10)) = some (.flt fp32) ∧ acWds (k 10) * 32 % 128 = 0 ∧ 8 * topPairs (k 11) ≤ acPitch (k 11) ∧
    (k 13).op = 0x58 ∧ (k 13).sub = 0 ∧ (k 14).op = 0x58 ∧ (k 14).sub = 1 := by
  simp only []; decide +kernel

/-- A command whose check at its start fails, and one that ends with its fault. -/
theorem witness_copy_faults :
    let k := cmd7 0x47 0x800000010000 0x100 0xE00010 0
    let s := base (fun t => { t with eng := { t.eng with copyQ := [k] } })
    let t := tileOf s 0
    let f : CopyRun := { runOf k with fail := some (2, false) }
    let u := tileOf (base (fun t => { t with copyRun := some f })) 0
    t.copyRun = none ∧ t.eng.copyQ = [k] ∧ t.parkSeen = false ∧ t.drainSeen = false ∧ copyStands 0 s = false ∧ inputsSet t k = true ∧
    t.badWs = [] ∧ (lensOf s (clusterOf 0)).bad = [] ∧ drainBefore s 0 k = false ∧ (copyStartReason s 0 k).1 ≠ 0 ∧ u.copyRun = some f ∧
    u.freezes = [] ∧ u.failing = [] ∧ bit u.eng.copyFault 63 = false ∧ k.job = jobOf u ∧ k.tout ≠ 0 := by
  simp only []; decide +kernel

/-! ### Lens steps -/

/-- An LMMS whose metadata names the first eight positions of each group, and one with metadata of zeros, which is malformed; an ACC.MERGE of a
list of two entries, before and after its header, and of a header too long; a DRAIN whose rows are out, one that stopped; an ACC.ALLOC
with rows to clear. -/
theorem witness_sparse_merge_and_drain :
    let k := cmd7 0x71 0x10000000000000 (0x10002000000000 + 0x4000) 0x8010180 0x3000
    let bits : Nat := sumN (upTo 8 (fun e => e * 2 ^ (6 * e)))
    let s := setLens (base (fun t => { t with sram := [(0x5000 + 252, 2)] })) 0 { Lens.reset with banks := [(0, ⟨.rank, 0, 4, none⟩)] }
    let merge := { bankCmd (cmd7 0x75 0x500000010000 0x100 256 0) with sub := 1 }
    let drain := { bankCmd (cmd7 0x76 0x20000 0x100 0 0) with pos := 2 }
    let alloc := { bankCmd (cmd7 0x79 0x200 0 0 0) with pos := 63 }
    lmSparse k = true ∧ lmNk k = 8 ∧ metaBad 8 bits = false ∧ metaBad 8 0 = true ∧ metaIdx bits 3 = 3 ∧ sparseG k = 4 ∧
    merge.cmd.op = 0x75 ∧ merge.pos < acRows merge.cmd ∧ 1 ≤ merge.sub ∧ acFirst merge.cmd + merge.pos = 0 ∧
    Mem.load (tileOf s 0).sram (cDst merge.cmd + 252) 4 = 2 ∧ merge.sub < 2 ∧ (bankOfRow s 0 0).k = 4 ∧
    bitsN (accWord s 0 0 63).toNat 0 6 ≤ 4 ∧ 31 < (32 : Nat) % 64 ∧ 2 ^ 13 ≤ (8192 : Nat) ∧
    acRows drain.cmd ≤ drain.pos ∧ drain.out = [] ∧ drain.stopped = none ∧ { drain with stopped := some 3 }.stopped = some 3 ∧
    OwnCommand (tileOf s 0) drain.cmd ∧ alloc.cmd.op = 0x79 ∧ alloc.checked = true ∧ alloc.pos < 32 * fld alloc.cmd.d0 8 8 ∧
    alloc.pos + 1 = 32 * fld alloc.cmd.d0 8 8 := by
  unfold OwnCommand; simp only []; decide +kernel

/-- A lamp that drains row 5 and comes to its `stop`. -/
theorem witness_row_release :
    let x : Lamp := { lampAtWork [] Lamp.reset with drain := true, row := some 5 }
    let a := { bankCmd (cmd7 0x76 0x20000 0x100 0 0) with out := [5] }
    let s := setLens (base (withLamp 0 (fun _ => x))) 0 { Lens.reset with accepted := [a], held := [(5, 0, 0)] }
    s.bundle.tile = 0 ∧ s.bundle.lamp = 0 ∧ (lampAt (tileOf s 0) 0).rep = none ∧ (lampAt (tileOf s 0) 0).drain = true ∧
    (lampAt (tileOf s 0) 0).row = some 5 ∧ (lensOf s 0).accepted = [a] ∧ a.tile = posOf 0 ∧ 5 ∈ a.out ∧
    vget (lampAt (tileOf s 0) 0).ptrs 2 none = some ⟨2, false, false⟩ := by
  simp only []; decide +kernel

/-! ### Messages at the banks, and replay -/

/-- A state whose agenda comes to the banks of tile 0. -/
def atBanks (m : MSlot) (f : Tile → Tile) : State := { oneSlot 3 m f with agenda := [.banks 0] }

/-- One read of a send, one write and one sum of a receive, the stream held. -/
theorem witness_slots_at_the_banks :
    let rd : Piece := ⟨0x1000, 0, [], none, false⟩
    let send := { sendSlot 16 with st := .header, subs := [sub], payload := List.replicate 16 0, todo := [rd] }
    let wr (add : Bool) : Piece := ⟨0x1000, 0, List.replicate 4 7, none, add⟩
    let recv (k : MsgKind) (add : Bool) : MSlot := { slot .data with kind := k, src := 1, len := 4, msgLen := 4, got := [(0, 4)], todo := [wr add] }
    let streams (t : Tile) : Tile := { t with msg := { t.msg with recvs := [stream1] } }
    (∀ m ∈ [send, recv .recv false, recv .recvAdd true, recv .recvPx8 false],
      let s := atBanks m streams
      let t := tileOf s 0
      OnlySlot t 3 m ∧ s.agenda = .banks 0 :: [] ∧ t.msg.logs = [] ∧ t.msg.hdrs = [] ∧ t.copyRun = none ∧
      (∀ i : Fin 2, slotOf (lensOf s (clusterOf 0)) i = none) ∧ t.keeper.late = none ∧ t.bad = [] ∧ 3 ∉ t.slow ∧ m.todo ≠ [] ∧
      (∀ p ∈ m.todo, p.src = none ∧ p.addr % 16 + p.bytes.length ≤ 16) ∧ bankGrants s t m.todo 0 = true ∧ piecesLeft s t m.todo = []) ∧
    piecesLeft (atBanks send id) (tileOf (atBanks send id) 0) [rd, rd] = [rd] ∧
    (∀ k ∈ [MsgKind.recv, .recvAdd, .recvPx8], wanted (recv k true) ≤ gotBytes (recv k true).got ∧ (recv k true).units = none) ∧
    sub.due = false ∧ send.payload.length = send.len ∧ stream1.matched = [((recv .recv false).seq, 3)] ∧
    (List.replicate 4 (7 : Byte)).length % (addTyOf (recv .recvAdd true).d3).bytes = 0 := by
  unfold OnlySlot; simp only []; decide +kernel

/-- A send in DATA whose CTS came before its bytes were read. -/
theorem witness_later_data :
    let x := { sub with cts := some 8 }
    let m := { sendSlot 8 with st := .data, subs := [x], payload := List.replicate 8 0 }
    let half := { sendSlot 64 with st := .header, payload := List.replicate 64 0, todo := [⟨0x1020, 0, [], none, false⟩] }
    OnlySlot (tileOf (oneSlot 127 m id) 0) 127 m ∧ x.st = .header ∧ x.cts = some 8 ∧ x.acked = none ∧ x.sentData = false ∧ x.sentTo = 0 ∧
    m.todo = [] ∧ 8 ≤ m.len ∧ m.payload.length = m.len ∧ readUpTo half < 64 ∧ readUpTo m = 8 := by
  unfold OnlySlot; simp only []; decide +kernel

/-- Log entries that name a wildcard receive: with a header that fits it, and one that does not. -/
theorem witness_replay_of_a_wildcard :
    let m := { slot .posted with anySrc := true }
    let entry : Nat := 1 + 3 * 2 ^ 64 + 2 ^ 71
    let s (tag : BitVec 24) : State := oneSlot 3 m (fun t => { t with
      ctrl := { t.ctrl with matchlog := 0x0000040000100002 }
      sram := Mem.store t.sram 0x100000 16 entry
      msg := { t.msg with hdrs := [header tag] } })
    let t := tileOf (s 5) 0
    let h (tag : BitVec 24) : Packet := (header tag).pkt
    ringMode t = 2 ∧ fld t.ctrl.matchlog 40 5 ≤ 15 ∧
    Mem.load t.sram (fld t.ctrl.matchlog 12 9 * 4096 + fld t.ctrl.matchlog 48 16 % 2 ^ fld t.ctrl.matchlog 40 5 * 16) 16 = entry ∧
    entry / 2 ^ 71 % 2 = 1 ∧ entry / 2 ^ 64 % 2 ^ 7 = 3 ∧ OnlySlot t 3 m ∧ m.isSend = false ∧ m.st = .posted ∧ m.anySrc = true ∧
    t.msg.hdrs = [header 5] ∧ (h 5).job = m.job ∧ (h 5).src.toNat = entry % 2 ^ 32 ∧ (h 5).seq.toNat = entry / 2 ^ 32 % 2 ^ 32 ∧
    (h 5).group.toNat = entry / 2 ^ 96 % 2 ^ 12 ∧ (header 5).units = [] ∧ (h 5).kind ≠ .eager ∧ t.msg.recvs = [] ∧
    fits m (h 6) = false ∧ fits m { h 5 with len := 64 } = true ∧ 0 < Nat.min { h 5 with len := 64 }.len m.len := by
  unfold OnlySlot; simp only []; decide +kernel
/-! ### Domains, images, failures, ports -/

/-- A SCAN whose two members have arrived, into buffers of their own; BARX at a whole and at a broken domain, alone and with a later one; a
part that the lightship has parked. -/
theorem witness_SCAN_and_BARX :
    let arr (r : TileId) (dst : Nat) : Arrival := { arrival r 0 7 with dst := dst, tout := 1 }
    let x := { domOf (member id) 0 1 with kind := 2, arrivals := [arr 0 0x1000, arr 1 0x1000] }
    let s := withDomain x 64
    let b (w : Nat) (r : TileId) (e : BitVec 16) : BarxReq := ⟨w, r, 1, e⟩
    let y := { domOf (member id) 0 1 with barx := [b 0 0 5, b 0 1 6], broken := true }
    let parked := modTile s 0 (fun t => { t with parked := some (7, EngineCtx.reset), ctrl := { t.ctrl with jobid := 9 } })
    s.domains = [x] ∧ x.kind = 2 ∧ x.broken = false ∧ x.anns = [] ∧ x.barx = [] ∧ x.parts = [] ∧
    (∀ r ∈ domTiles s x, ∃ a ∈ x.arrivals, a.tile.val = r ∧ a.clk ≤ s.cycle) ∧ (x.arrivals.map (fun a => a.tile)).Nodup ∧
    (∀ a ∈ x.arrivals, a.window + 2 ≤ s.cycle / 32 ∧ a.values.length ≤ 16 ∧ a.station = false ∧ tileAway s x.job a.tile.val = false) ∧
    domLevel x.shape ≠ 4 ∧ y.barx = [b 0 0 5, b 0 1 6] ∧ (b 0 0 5).window + 2 ≤ s.cycle / 32 ∧ y.broken = true ∧ y.toDue = none ∧
    (b 0 0 5).tile.val < (b 0 1 6).tile.val ∧ tileAway parked x.job 0 = true := by
  simp only []; decide +kernel

/-- A tile with its image whose child expects it, and a child with the image before it. -/
theorem witness_images :
    let j := { job7 with st := .loading }
    let m : MSlot := { slot .ordered with station := true, group := 0xFFC, job := 0xFFFF, src := 0x800, msgLen := 8, len := 8 }
    let x : RecvStream := { stream1 with peer := 0x800, group := 0xFFC, job := 0xFFFF, matched := [(0, 135)] }
    let s := modTile (withJob j) 0 (fun t => { t with imageSent := 0 })
    let u := tileOf (modTile (withJob j) 1 (fun t => { t with stSlots := [(7, m)], msg := { t.msg with recvs := [x] }, imageDone := false })) 1
    liveJob s (jobOf (tileOf s 0)) = some j ∧ (tileOf s 0).imageDone = true ∧ (childrenOf j 0)[(tileOf s 0).imageSent]? = some 1 ∧
    SMap.find (tileOf s 0).stSlots 6 = none ∧ u.stSlots = [(7, m)] ∧ u.eng.slots = [] ∧ u.parked = none ∧ m.kind = .recv ∧
    m.st = .ordered ∧ m.units = none ∧ m.msgLen ≤ m.len ∧ u.msg.recvs = [x] ∧ x.peer = m.src ∧ x.matched = [(m.seq, 135)] := by
  simp only []; decide +kernel

/-- A router failure with one job on its die, the release that is due, and the end of the deferral; a job with windows elsewhere. -/
theorem witness_router_failures :
    let s := withJob job7
    let rel : State := { State.reset with agenda := [.serve], ls := { State.reset.ls with deferred := [.release [1], .router 0] } }
    let due : State := { State.reset with ls := { State.reset.ls with deferred := [.router 0] } }
    s.ls.deferred = [] ∧ (tileOf s 0).duplex ≠ .follower ∧ liveJobs s = [job7] ∧ s.servers = [] ∧ job7.st ≠ .parked ∧
    (⟨1, 0, false, 1⟩ : Placed) ∈ job7.placed ∧ 1 / 256 = 0 ∧ (∀ x ∈ jobTiles s job7.id, slotList s x = [] ∧ (tileOf s x).msg.hdrs = []) ∧
    rel.agenda = [.serve] ∧ rel.ls.podMsgs = [] ∧ rel.ls.deferred = .release [1] :: [.router 0] ∧ due.ls.deferred = [.router 0] ∧
    liveJobs due = [] ∧ due.ls.leaving = [] ∧ vget due.ls.dies 0 .online ≠ .offline ∧ (∀ n, job7.touches 3 n = false) ∧
    touches 3 (saveEntry job7) = false := by
  simp only []; refine ⟨by decide +kernel, by decide +kernel, by decide +kernel, by decide +kernel, by decide +kernel, by decide +kernel,
    by decide +kernel, by decide +kernel, by decide +kernel, by decide +kernel, by decide +kernel, by decide +kernel, by decide +kernel,
    by decide +kernel, by decide +kernel, ?_, by decide +kernel⟩
  intro n
  have h : (List.replicate 64 (0 : W64)).getD n 0 = 0 := by
    rw [List.getD_eq_getElem?_getD, List.getElem?_replicate]; split <;> rfl
  simp only [Job.touches, job7, Option.toList_none, List.any_cons, List.any_nil, h]; decide +kernel

/-- A port in RUN joined to another one, and one alone; frames that only acknowledge, that carry a packet not yet taken, one taken before and
one out of the order of its context; the peers that a port may have. -/
theorem witness_frames :
    let port (f : PortSt → PortSt) : State := hosted { State.reset with
      ports := vset State.reset.ports 2 (f { PortSt.reset with st := .run, keys := true, peer := 1 }) }
    let pk := packet .ack 0
    let c := pdsOf (port id) 1 (pdsLane pk)
    let two : State := { port id with ports := vset (port id).ports 3 { PortSt.reset with keys := true, peer := 1 } }
    let at8 : State := hosted { State.reset with ports := vset State.reset.ports 8 PortSt.reset }
    (Machine.portOf (port id) 2).st = .run ∧ (Machine.portOf (port id) 2).wire = [] ∧ (frameOf pk).pkt = some pk ∧ (frameOf pk).acks = [] ∧
    (frameOf pk).tagOk = true ∧ (Machine.portOf (port id) 2).highest ≤ (frameOf pk).counter ∧ c.has 0 = false ∧ c.next = 0 ∧
    { frameOf pk with psn := 1 }.psn ≠ c.next ∧ (PdsCtx.mk 1 1 []).has 0 = true ∧ pk.tree = [] ∧ nodeOf pk.dst = (port id).ls.node ∧
    { frameOf pk with pkt := none }.pkt = none ∧
    (Machine.portOf two 2).peer ≠ 0xFFFF ∧ (Machine.portOf two 3).peer = (Machine.portOf two 2).peer ∧ (Machine.portOf two 3).keys = true ∧
    (Machine.portOf at8 8).st = .unlocked ∧ portWired at8 8 = true ∧ at8.ls.hosts.map nodeOf = [0xFFFF] := by
  simp only []; decide +kernel

/-- Instructions put off, at the end of the clk: a store, a write of a control register, an LSTART. -/
theorem witness_late_instructions :
    let s (i : Instr) : State := { about 0 (fun t => { t with keeper := { t.keeper with late := some i } }) with agenda := [.keeper 0] }
    (∀ i ∈ [Instr.sw 3 1 0, .crw 5 5, .lstart 1 2, .lgroup 1 2],
      let t := { s i with agenda := [], focus := 0 }
      (cur t).keeper.late = some i ∧ mayIssue (setLate none t) i = true) := by
  simp only []; decide +kernel

/-! ## Worked examples of the spec, one step or operation each -/

/-- Lane 0 of what an operation delivers, in lanes of 8 bits. -/
def lane8 (i : Instr) (a t : W32) : Option (BitVec 8) :=
  match exec i (lampOp id (fun l => { lanes t l with iaA := bcast32 a })) with
  | .next s => ((lampAt (tileOf s 0) 0).flight.head?).bind (fun o => o.outs.head?.map (fun p => lane p.2 8 0))
  | _ => none

/-- The 8-bit operations of the example below R136. -/
theorem test_eight_bit_lanes :
    lane8 (.iaAdd .ia .w8) 100 100 = some 0xC8 ∧ lane8 (.addsS .ia .w8) 100 100 = some 0x7F ∧
    lane8 (.addsZ .ia .w8) 100 100 = some 0xC8 ∧ lane8 (.iaSub .ia .w8) 5 10 = some 0xFB ∧
    lane8 (.subsS .ia .w8) 5 10 = some 0xFB ∧ lane8 (.subsZ .ia .w8) 5 10 = some 0x00 ∧
    lane8 (.minS .ia .w8) 0xFB 0x05 = some 0xFB := by decide +kernel

/-- The conversions to E4M3 of the example below R170: bits and flags (narrow_sat, inexact, underflow). -/
theorem test_narrowing_to_e4m3 :
    let c (x : Nat) : Nat × Bool :=
      let r := convert (.flt fp32) (.flt e4m3) .rne true false false x
      (r.bits, r.trap)
    [c 0x3F800000, c 0x43960000, c 0x7FC00000, c 0x80000000, c 0x3A800000, c 0x3C23D70A] =
      [(0x38, false), (0x79, false), (0x7F, false), (0x80, false), (0x00, false), (0x05, false)] ∧
    (c 0x43FA0000).2 = true ∧ (c 0x7F800000).2 = true ∧
    (convert (.flt fp32) (.flt e4m3) .rne false false false 0x43FA0000).bits = 0x7E := by decide +kernel

/-- The group of the example below R64. -/
theorem test_group_sum :
    let f (x : Nat) : FVal := bf16.decode x
    let a (x : Nat) : FVal := e4m3.decode x
    let one : Option (Nat × Int) := sc10Val 0x1FC
    accumulate 0xD7E00000 (groupSum ([prod (a 0x7E) (f 0x5380), prod (a 0x01) (f 0x3AC0), prod (a 0x3A) (f 0x3F81),
      prod (a 0xB4) (f 0x3A40)] ++ List.replicate 28 (prod (a 0) (f 0)))) one one = 0x3FA13000 := by decide +kernel

/-- The ranked list of the example below R334: insertion, and the merge that follows. -/
theorem test_ranked_list :
    let empty : List W32 := listRow 4 []
    let scores : List (W32 × W32) := [(0x3F000000, 100), (0x40000000, 101), (0x7FC00000, 102), (0x40000000, 103),
      (0x3F800000, 104), (0x80000000, 105), (0x40400000, 106), (0, 107)]
    let ins (ws : List W32) (xs : List (W32 × W32)) : List W32 := xs.foldl (fun w p => listInsert 4 w p.1 p.2) ws
    let row := ins empty scores
    row.take 8 = [0x40400000, 106, 0x40000000, 101, 0x40000000, 103, 0x3F800000, 104] ∧ row.drop 62 = [0x3F800000, 0x1104] ∧
    (ins row [(0x3F800000, 99), (0x3F800000, 110)]).take 8 = [0x40400000, 106, 0x40000000, 101, 0x40000000, 103, 0x3F800000, 99] ∧
    ins row [(0x3F800000, 99), (0x3F800000, 110)] = ins row [(0x3F800000, 110), (0x3F800000, 99)] := by decide +kernel

/-- The block of the example below R39: its ten words but the last. -/
theorem test_px8_block :
    let xs := [0x48, 0xCC, 0x40, 0x3A, 0xB4, 0x28, 0x00, 0x08]
    let bs := px8Stream [px8EncodeBlock (xs ++ xs ++ xs ++ xs) 0x1F8]
    bs.length = 40 ∧ upTo 9 (fun i => leAt bs (4 * i) 4) =
      [9, 0x083025F8, 0x08300003, 0x08300003, 0x08300003, 0xDCED0003, 0xB9DA6797, 0x73B4CF2F, 0xE7699E5F] := by decide +kernel

/-- The place of the example below R431: stack 5, stack address 0x41_8234. -/
theorem test_window_place :
    hbmAddr (BitVec.ofNat 64 (0x30 * 2 ^ 51 + 0x1000 * 2 ^ 24 + 0x100)) 0x31234 = 5 * 2 ^ 36 + 0x418234 := by decide

/-- The done words of the example below R445. -/
theorem test_done_words :
    combineWords [0x0000000000000005, 0x0002000100000010, 0x8001000100000000] = 0x8001000200000015 := by decide

/-- Tree entries of the example below R486. -/
theorem test_tree_entries :
    [(0x4800000000090001 : W64), 0x90100, 0x8800000000000011].map (fun w => (treeKind w, treeKids w, (treeTarget w).toNat)) =
      [(1, 2, 0x90001), (0, 0, 0x90100), (2, 2, 0x11)] := by decide

/-- Skewed granules of the example below R205. -/
theorem test_skew :
    let t := { Tile.reset with ctrl := { Tile.reset.ctrl with skewbase := 0x40001, skewpitch := 0x1F0000 } }
    skewMap t 0x40FE0 = 0x40C10 := by decide +kernel

/-- The all-zero word traps ILLEGAL, and without a handler the keeper goes to station level (R219, R228). -/
theorem test_illegal_at_reset :
    (match step (State.reset.withFetchWord 32 0) with
     | .next s => (tileOf s 0).keeper.station && (tileOf s 0).keeper.pc == 0x1F0000 && (tileOf s 0).ctrl.strappc == 0 &&
         fld (tileOf s 0).ctrl.strapcause 0 4 == 1
     | _ => false) = true := by decide +kernel

end
end Sys2Proof.Tests
end

section
/-! PROOFS. The integer operations of the lamps (R132 to R152): what the lane functions put in each lane, what a delivery
comes to, and the three statements about `ia`, `ib` and `pr`. -/

namespace Sys2Proof.LampIntegerProofs

open Sys2Proof.Machine Sys2Proof.Claims

/-! ### Lanes of a packed value (R9) -/

theorem lane_packLanes_cons_zero {n : Nat} (a : BitVec n) (as : List (BitVec n)) (h : n ≤ 128) :
    lane (packLanes n (a :: as)) n 0 = a := by
  apply BitVec.eq_of_getLsbD_eq
  intro k hk
  have hfits : k < 128 := by omega
  simp only [lane, packLanes, BitVec.getLsbD_extractLsb', BitVec.getLsbD_or, BitVec.getLsbD_shiftLeft,
    BitVec.truncate_eq_setWidth, BitVec.getLsbD_setWidth, Nat.mul_zero, Nat.zero_add, hk, hfits, decide_true, Bool.not_true,
    Bool.and_false, Bool.false_and, Bool.true_and, Bool.false_or]

theorem lane_packLanes_cons_succ {n : Nat} (a : BitVec n) (as : List (BitVec n)) (i : Nat) (h : n * (i + 2) ≤ 128) :
    lane (packLanes n (a :: as)) n (i + 1) = lane (packLanes n as) n i := by
  apply BitVec.eq_of_getLsbD_eq
  intro k hk
  have hlo : n * (i + 1) = n * i + n := Nat.mul_succ n i
  have hhi : n * (i + 2) = n * (i + 1) + n := Nat.mul_succ n (i + 1)
  have hpos : n * (i + 1) + k - n = n * i + k := by omega
  have hfits : n * (i + 1) + k < 128 := by omega
  have hpast : n ≤ n * (i + 1) + k := by omega
  simp only [lane, packLanes, BitVec.getLsbD_extractLsb', BitVec.getLsbD_or, BitVec.getLsbD_shiftLeft,
    BitVec.truncate_eq_setWidth, BitVec.getLsbD_setWidth, BitVec.getLsbD_of_ge a _ hpast, hpos, hfits, Nat.not_lt.mpr hpast,
    decide_true, decide_false, Bool.not_false, Bool.true_and, Bool.and_false, Bool.or_false]

/-- A lane that lies within the 128 bits reads back as the item of the list. -/
theorem lane_packLanes {n : Nat} (as : List (BitVec n)) (i : Nat) (h : n * (i + 1) ≤ 128) (hi : i < as.length) :
    lane (packLanes n as) n i = as[i] := by
  induction as generalizing i with
  | nil => exact absurd hi (Nat.not_lt_zero i)
  | cons a as ih =>
    cases i with
    | zero => exact lane_packLanes_cons_zero a as (Nat.mul_one n ▸ h)
    | succ i =>
      have hle : n * (i + 1) ≤ n * (i + 2) := Nat.mul_le_mul_left n (by omega)
      rw [lane_packLanes_cons_succ a as i h]
      exact ih i (Nat.le_trans hle h) (Nat.lt_of_succ_lt_succ hi)

/-- The form in which the operations build their results: lane `i` of a table of `k` lanes that fit. -/
theorem lane_packLanes_range {n k : Nat} (f : Nat → BitVec n) (h : n * k ≤ 128) {i : Nat} (hi : i < k) :
    lane (packLanes n ((List.range k).map f)) n i = f i := by
  rw [lane_packLanes _ i (Nat.le_trans (Nat.mul_le_mul_left n hi) h)
    (by rwa [List.length_map, List.length_range]), List.getElem_map, List.getElem_range]

theorem lane_mapLanes {n : Nat} (f : BitVec n → BitVec n) (x : V128) {i : Nat} (hi : i < 128 / n) :
    lane (mapLanes n f x) n i = f (lane x n i) :=
  lane_packLanes_range _ (Nat.mul_div_le 128 n) hi

theorem lane_zipLanes {n : Nat} (f : BitVec n → BitVec n → BitVec n) (x y : V128) {i : Nat} (hi : i < 128 / n) :
    lane (zipLanes n f x y) n i = f (lane x n i) (lane y n i) :=
  lane_packLanes_range _ (Nat.mul_div_le 128 n) hi

theorem lane_bcast32 (a : W32) {i : Nat} (hi : i < 4) : lane (bcast32 a) 32 i = a :=
  lane_packLanes_range (k := 4) (fun _ => a) (by decide) hi

/-! ### Deliveries (R76) -/

theorem delivers_deliver (unit lat : Nat) (outs : List (Nat × V128)) (flags : Nat) (s : State) :
    Delivers s (runOp (deliver unit lat outs flags s) s) unit lat outs flags := rfl

theorem deliversOne_deliver {unit lat port : Nat} {v : V128} {P : V128 → Prop} (s : State) (h : P v) :
    DeliversOne s (runOp (deliver unit lat [(port, v)] 0 s) s) unit lat port P :=
  ⟨v, delivers_deliver unit lat _ 0 s, h⟩

/-- A lane-wise operation delivers any function that agrees with its own (R135, R136). -/
theorem deliversOne_laneOp {u : IntUnit} {n : Nat} {f g : BitVec n → BitVec n → BitVec n} (s : State)
    (h : ∀ a b, f a b = g a b) :
    DeliversOne s (runOp (laneOp u n f s) s) (IntUnit.num u) 1 (4 * IntUnit.num u)
      (Lanes n g (opX u s.bundle) s.bundle.t) :=
  deliversOne_deliver s fun _ hi => (lane_zipLanes f _ _ hi).trans (h _ _)

theorem deliversOne_bitsOp {u : IntUnit} (f : V128 → V128 → V128) (s : State) :
    DeliversOne s (runOp (bitsOp u f s) s) (IntUnit.num u) 1 (4 * IntUnit.num u)
      (fun v => v = f (opX u s.bundle) s.bundle.t) :=
  deliversOne_deliver s rfl

/-! ### Arithmetic of one lane (R136, R137) -/

theorem clampS_eq_max_min (n : Nat) (z : Int) :
    clampS n z = BitVec.ofInt n (max (-(2 ^ (n - 1) : Int)) (min (2 ^ (n - 1) - 1) z)) := by
  have hpos : (0 : Int) < 2 ^ (n - 1) := Int.pow_pos (by decide)
  unfold clampS
  generalize (2 ^ (n - 1) : Int) = m at *
  grind

theorem clampZ_eq_max_min (n : Nat) (z : Int) :
    clampZ n z = BitVec.ofInt n (max 0 (min (2 ^ n - 1) z)) := by
  have hpos : (0 : Int) < 2 ^ n := Int.pow_pos (by decide)
  unfold clampZ
  generalize (2 ^ n : Int) = m at *
  grind

theorem smaller_signed {n : Nat} (a b : BitVec n) : smaller n true a b = if b.toInt < a.toInt then b else a := by
  simp only [smaller, if_true, BitVec.slt_eq_decide, decide_eq_true_eq]

theorem smaller_unsigned {n : Nat} (a b : BitVec n) : smaller n false a b = if b.toNat < a.toNat then b else a := by
  simp only [smaller, Bool.false_eq_true, if_false, BitVec.ult_eq_decide, decide_eq_true_eq]

theorem larger_signed {n : Nat} (a b : BitVec n) : larger n true a b = if a.toInt < b.toInt then b else a := by
  simp only [larger, if_true, BitVec.slt_eq_decide, decide_eq_true_eq]

theorem larger_unsigned {n : Nat} (a b : BitVec n) : larger n false a b = if a.toNat < b.toNat then b else a := by
  simp only [larger, Bool.false_eq_true, if_false, BitVec.ult_eq_decide, decide_eq_true_eq]

theorem shiftLeft_eq_ofNat {n : Nat} (a : BitVec n) (c : Nat) : a <<< c = BitVec.ofNat n (a.toNat * 2 ^ c) := by
  apply BitVec.eq_of_toNat_eq
  rw [BitVec.toNat_shiftLeft, BitVec.toNat_ofNat, Nat.shiftLeft_eq]

theorem ushiftRight_eq_ite {n : Nat} (a : BitVec n) (c : Nat) :
    a >>> c = if n ≤ c then 0 else BitVec.ofNat n (a.toNat / 2 ^ c) := by
  apply BitVec.eq_of_toNat_eq
  split
  · next h =>
    have hlt : a.toNat < 2 ^ c := Nat.lt_of_lt_of_le a.isLt (Nat.pow_le_pow_right (by decide) h)
    rw [BitVec.toNat_ushiftRight, Nat.shiftRight_eq_div_pow, Nat.div_eq_of_lt hlt]
    rfl
  · have hlt : a.toNat / 2 ^ c < 2 ^ n := Nat.lt_of_le_of_lt (Nat.div_le_self _ _) a.isLt
    rw [BitVec.toNat_ushiftRight, Nat.shiftRight_eq_div_pow, BitVec.toNat_ofNat, Nat.mod_eq_of_lt hlt]

/-- Past the sign bit an arithmetic shift leaves the sign alone: 0 or -1. -/
theorem toInt_div_pow_of_le {n c : Nat} (a : BitVec n) (h : n - 1 ≤ c) :
    a.toInt / 2 ^ c = if a.toInt < 0 then -1 else 0 := by
  have hpow : (2 ^ (n - 1) : Int) ≤ 2 ^ c := by
    exact_mod_cast Nat.pow_le_pow_right (n := 2) (by decide) h
  have hlo := BitVec.le_toInt a
  have hhi := BitVec.toInt_lt (x := a)
  split
  · exact Int.ediv_eq_neg_one_of_neg_of_le ‹_› (by omega)
  · exact Int.ediv_eq_zero_of_lt (by omega) (by omega)

theorem sshiftRight_eq_ofInt_div {n : Nat} (a : BitVec n) (c : Nat) :
    a.sshiftRight c = BitVec.ofInt n (a.toInt / 2 ^ min c (n - 1)) := by
  have hdiv : a.toInt / 2 ^ c = a.toInt / 2 ^ min c (n - 1) := by
    rcases Nat.le_total c (n - 1) with h | h
    · rw [Nat.min_eq_left h]
    · rw [Nat.min_eq_right h, toInt_div_pow_of_le a h, toInt_div_pow_of_le a Nat.le.refl]
  rw [BitVec.sshiftRight_eq, Int.shiftRight_eq_div_pow, ← hdiv]
  norm_cast

/-- Settles O27: every operation is `laneOp` or `bitsOp`, so each clause is the arithmetic of one lane. -/
theorem lampIntegerOperations : Obligations.LampIntegerOperations := by
  unfold Obligations.LampIntegerOperations
  constructor
  · intro s u w
    refine ⟨?add, ?sub, ?addsS, ?addsZ, ?subsS, ?subsZ, ?minS, ?minZ, ?maxS, ?maxZ, ?shl, ?shrZ, ?shrS⟩
    case add => exact deliversOne_laneOp s fun _ _ => rfl
    case sub => exact deliversOne_laneOp s fun _ _ => rfl
    case addsS => exact deliversOne_laneOp s fun _ _ => clampS_eq_max_min _ _
    case addsZ => exact deliversOne_laneOp s fun _ _ => clampZ_eq_max_min _ _
    case subsS => exact deliversOne_laneOp s fun _ _ => clampS_eq_max_min _ _
    case subsZ => exact deliversOne_laneOp s fun _ _ => clampZ_eq_max_min _ _
    case minS => exact deliversOne_laneOp s smaller_signed
    case minZ => exact deliversOne_laneOp s smaller_unsigned
    case maxS => exact deliversOne_laneOp s larger_signed
    case maxZ => exact deliversOne_laneOp s larger_unsigned
    case shl => exact deliversOne_laneOp s fun a c => by rw [shiftLeft_eq_ofNat]
    case shrZ => exact deliversOne_laneOp s fun a c => ushiftRight_eq_ite a c.toNat
    case shrS => exact deliversOne_laneOp s fun a c => sshiftRight_eq_ofInt_div a c.toNat
  · intro s u
    refine ⟨?and, ?or, ?xor, ?andn, ?not, ?mov, ?add64, ?sub64⟩
    case and => exact deliversOne_bitsOp (fun x y => x &&& y) s
    case or => exact deliversOne_bitsOp (fun x y => x ||| y) s
    case xor => exact deliversOne_bitsOp (fun x y => x ^^^ y) s
    case andn => exact deliversOne_bitsOp (fun x y => x &&& ~~~ y) s
    case not => exact deliversOne_bitsOp (fun _ y => ~~~ y) s
    case mov => exact deliversOne_bitsOp (fun _ y => y) s
    case add64 => exact deliversOne_laneOp s fun _ _ => rfl
    case sub64 => exact deliversOne_laneOp s fun _ _ => rfl

/-! ### Products of lanes (R141) -/

theorem lane_wideLanes_signed {n : Nat} (lo : Nat) (x y : V128) {i : Nat} (hi : i < 64 / n) :
    (lane (wideLanes n true lo x y) (2 * n) i).toInt = (lane x n (lo + i)).toInt * (lane y n (lo + i)).toInt := by
  have hn : 0 < n := Nat.pos_of_ne_zero fun h => by rw [h, Nat.div_zero] at hi; exact Nat.not_lt_zero i hi
  have hfit : 2 * n * (64 / n) ≤ 128 := by have := Nat.mul_div_le 64 n; rw [Nat.mul_assoc]; omega
  have hpow : (2 : Int) ^ (n * 2 - 2) < 2 ^ (2 * n - 1) := Int.pow_lt_pow_of_lt (by decide) (by omega)
  have hle := BitVec.toInt_mul_toInt_le (x := lane x n (lo + i)) (y := lane y n (lo + i))
  have hge := BitVec.le_toInt_mul_toInt (x := lane x n (lo + i)) (y := lane y n (lo + i))
  rw [wideLanes, lane_packLanes_range _ hfit hi]
  exact BitVec.toInt_ofInt_eq_self (by omega) (by omega) (by omega)

theorem lane_wideLanes_unsigned {n : Nat} (lo : Nat) (x y : V128) {i : Nat} (hi : i < 64 / n) :
    (lane (wideLanes n false lo x y) (2 * n) i).toNat = (lane x n (lo + i)).toNat * (lane y n (lo + i)).toNat := by
  have hfit : 2 * n * (64 / n) ≤ 128 := by have := Nat.mul_div_le 64 n; rw [Nat.mul_assoc]; omega
  have hlt : (lane x n (lo + i)).toNat * (lane y n (lo + i)).toNat < 2 ^ (2 * n) := by
    rw [Nat.two_mul, Nat.pow_add]
    exact Nat.mul_lt_mul'' (BitVec.isLt _) (BitVec.isLt _)
  rw [wideLanes, lane_packLanes_range _ hfit hi]
  exact (BitVec.toNat_ofNat _ _).trans (Nat.mod_eq_of_lt hlt)

/-! ### Counts, permutations and interleaving (R142 to R146) -/

theorem map_val_finRange (n : Nat) : (List.finRange n).map Fin.val = List.range n :=
  List.ext_getElem (by simp only [List.length_map, List.length_finRange, List.length_range]) fun i h₁ h₂ => by
    rw [List.getElem_map, List.getElem_finRange, List.getElem_range]; rfl

theorem toNat_popcount (a : W32) :
    (BitVec.ofNat 32 ((List.range 32).filter (fun i => a.getLsbD i)).length).toNat =
      ((List.finRange 32).filter (fun j => a.getLsbD j.val)).length := by
  have hlen : ((List.range 32).filter (fun i => a.getLsbD i)).length ≤ 32 :=
    Nat.le_trans (List.length_filter_le _ _) (Nat.le_of_eq List.length_range)
  rw [BitVec.toNat_ofNat, Nat.mod_eq_of_lt (by omega), ← map_val_finRange, List.filter_map, List.length_map]
  rfl

/-- The top bit of a selector, as the bound on its value that the statement of R143 and R144 uses. -/
theorem getLsbD_top_iff {n : Nat} (a : BitVec n) : a.getLsbD (n - 1) = true ↔ 2 ^ (n - 1) ≤ a.toNat := by
  rw [← BitVec.msb_eq_getLsbD_last, BitVec.msb_eq_decide, decide_eq_true_iff]

theorem lane_permute {n : Nat} (x y z : V128) {i : Nat} (hi : i < 128 / n) :
    lane (permute n x y z) n i =
      if 2 ^ (n - 1) ≤ (lane x n i).toNat then 0
      else if (lane x n i).toNat % (2 * (128 / n)) < 128 / n then lane y n ((lane x n i).toNat % (2 * (128 / n)))
      else lane z n ((lane x n i).toNat % (2 * (128 / n)) - 128 / n) := by
  rw [permute, lane_packLanes_range _ (Nat.mul_div_le 128 n) hi]
  simp only [getLsbD_top_iff]

theorem lane_interleave_even {n : Nat} (lo : Nat) (y z : V128) {i : Nat} (hi : 2 * i < 128 / n) :
    lane (interleave n lo y z) n (2 * i) = lane y n (lo + i) := by
  rw [interleave, lane_packLanes_range _ (Nat.mul_div_le 128 n) hi, if_pos (by omega), show 2 * i / 2 = i by omega]

theorem lane_interleave_odd {n : Nat} (lo : Nat) (y z : V128) {i : Nat} (hi : 2 * i + 1 < 128 / n) :
    lane (interleave n lo y z) n (2 * i + 1) = lane z n (lo + i) := by
  rw [interleave, lane_packLanes_range _ (Nat.mul_div_le 128 n) hi, if_neg (by omega), show (2 * i + 1) / 2 = i by omega]

/-- Lane `2 * i + 1` exists for each of the `64 / n` pairs of an interleaving. -/
theorem pair_lt_of_lt_half {n i : Nat} (hi : i < 64 / n) : 2 * i + 1 < 128 / n := by
  have hn : 0 < n := Nat.pos_of_ne_zero fun h => by rw [h, Nat.div_zero] at hi; exact Nat.not_lt_zero i hi
  have hfit : (i + 1) * n ≤ 64 := (Nat.le_div_iff_mul_le hn).mp hi
  have hpair : 2 * (i + 1) * n = 2 * ((i + 1) * n) := Nat.mul_assoc 2 (i + 1) n
  exact (Nat.le_div_iff_mul_le hn).mpr (show 2 * (i + 1) * n ≤ 128 by omega)

/-- Settles O28: each clause is the lane lemma of its result. -/
theorem lampIbOperations : Obligations.LampIbOperations := by
  unfold Obligations.LampIbOperations
  intro s w w32
  refine ⟨?mul, ?mulwS, ?mulwZ, rfl, rfl, ?popc, ?permB8, ?permB32, ?bcast, ?zipl, ?ziph⟩
  case mul => exact deliversOne_deliver s fun _ hi => lane_zipLanes _ _ _ hi
  case mulwS =>
    refine ⟨_, _, delivers_deliver 1 3 _ 0 s, fun i hi => ⟨?_, lane_wideLanes_signed _ _ _ hi⟩⟩
    rw [lane_wideLanes_signed _ _ _ hi, Nat.zero_add]
  case mulwZ =>
    refine ⟨_, _, delivers_deliver 1 3 _ 0 s, fun i hi => ⟨?_, lane_wideLanes_unsigned _ _ _ hi⟩⟩
    rw [lane_wideLanes_unsigned _ _ _ hi, Nat.zero_add]
  case popc =>
    exact deliversOne_deliver s fun _ hi =>
      (congrArg BitVec.toNat (lane_mapLanes _ _ hi)).trans (toNat_popcount _)
  case permB8 => exact deliversOne_deliver s fun _ hi => lane_permute _ _ _ hi
  case permB32 => exact deliversOne_deliver s fun _ hi => lane_permute _ _ _ hi
  case bcast => exact deliversOne_deliver s fun _ hi => lane_bcast32 _ hi
  case zipl =>
    refine deliversOne_deliver s fun i hi => ?_
    have hpair := pair_lt_of_lt_half hi
    exact ⟨lane_interleave_even _ _ _ (by omega), lane_interleave_odd _ _ _ hpair⟩
  case ziph =>
    have hhalf : (if w32 then 2 else 4) = 64 / (if w32 then 32 else 16) := by cases w32 <;> rfl
    refine deliversOne_deliver s fun i hi => ?_
    have hpair := pair_lt_of_lt_half hi
    rw [← hhalf]
    exact ⟨lane_interleave_even _ _ _ (by omega), lane_interleave_odd _ _ _ hpair⟩

/-! ### Compares, predicates and masks (R147 to R152) -/

/-- The number that a compare type takes a lane for. -/
def laneValue {n : Nat} (sg : Bool) (a : BitVec n) : Int := if sg then a.toInt else a.toNat

theorem lane_ite_allOnes {n : Nat} {v : V128} {i : Nat} {b : Bool} {P : Prop}
    (h : lane v n i = if b then BitVec.allOnes n else 0) (hb : b = true ↔ P) :
    (P → lane v n i = BitVec.allOnes n) ∧ (¬ P → lane v n i = 0) := by
  rw [h]
  exact ⟨fun hp => if_pos (hb.mpr hp), fun hp => if_neg (mt hb.mp hp)⟩

/-- A compare of integers, for any condition and the relation that it decides. -/
theorem deliversOne_lampCmp {c : Cond} {R : Int → Int → Prop} {ty : CmpType} {n : Nat} {sg : Bool} (s : State)
    (hty : CmpType.split ty = .inl (n, sg)) (hc : ∀ a b, c.int a b = true ↔ R a b) :
    DeliversOne s (runOp (lampCmp c ty s) s) 6 1 24 (fun v => ∀ i, i < 128 / n →
      (R (laneValue sg (lane s.bundle.prA n i)) (laneValue sg (lane s.bundle.t n i)) → lane v n i = BitVec.allOnes n) ∧
      (¬ R (laneValue sg (lane s.bundle.prA n i)) (laneValue sg (lane s.bundle.t n i)) → lane v n i = 0)) := by
  unfold lampCmp
  rw [hty]
  refine deliversOne_deliver s fun i hi => lane_ite_allOnes (lane_zipLanes _ _ _ hi) ?_
  rw [← hc]
  cases sg <;> rfl

/-- `prOut` of a word that is all ones where `b` holds and all zeros where it does not. -/
theorem deliversOne_allBits {b : Bool} {P : Prop} (s : State) (hb : b = true ↔ P) :
    DeliversOne s (runOp (prOut (allBits b) s) s) 6 1 24
      (fun v => (P → v = BitVec.allOnes 128) ∧ (¬ P → v = 0)) :=
  deliversOne_deliver s ⟨fun hp => if_pos (hb.mpr hp), fun hp => if_neg (mt hb.mp hp)⟩

theorem laneSet_iff (y : V128) (i : Nat) : laneSet y i = true ↔ lane y 32 i ≠ 0 := bne_iff_ne

/-- A select takes each bit from one of its two words by the mask (R150). -/
theorem getLsbD_select (x y z : V128) (i : Nat) (hi : i < 128) :
    ((y &&& x) ||| (z &&& ~~~ x)).getLsbD i = if x.getLsbD i then y.getLsbD i else z.getLsbD i := by
  simp only [BitVec.getLsbD_or, BitVec.getLsbD_and, BitVec.getLsbD_not, hi, decide_true, Bool.true_and]
  cases x.getLsbD i
  case false => rw [Bool.and_false, Bool.not_false, Bool.and_true, Bool.false_or, if_neg Bool.false_ne_true]
  case true => rw [Bool.and_true, Bool.not_true, Bool.and_false, Bool.or_false, if_pos rfl]

theorem deliversOne_maskOp {n : Nat} (s : State) :
    DeliversOne s (runOp (maskOp n s) s) 6 1 24 (fun v => ∀ i, i < 128 / n → lane v n i =
      if (lane s.bundle.t 32 0).getLsbD (i + (lane s.bundle.prA 32 0).toNat % 32) then BitVec.allOnes n else 0) := by
  refine deliversOne_deliver s fun i hi => ?_
  rw [lane_packLanes_range _ (Nat.mul_div_le 128 n) hi, BitVec.getLsbD_ushiftRight, Nat.add_comm]

/-- Settles O29: compares by the relation that each condition decides, the rest by the value of its predicate bit. -/
theorem lampPredicateOperations : Obligations.LampPredicateOperations := by
  unfold Obligations.LampPredicateOperations
  intro s
  refine ⟨?cmp, ?any, ?all, rfl, ?sel, ?pand, ?por, ?pxor, ?pnot, ?mask32, ?mask16, ?mask8⟩
  case cmp =>
    intro ty n sg hty
    refine ⟨?_, ?_, ?_, ?_⟩ <;> exact deliversOne_lampCmp s hty fun _ _ => decide_eq_true_iff
  case any => exact deliversOne_allBits s (by simp only [List.any_eq_true, List.mem_range, laneSet_iff])
  case all => exact deliversOne_allBits s (by simp only [List.all_eq_true, List.mem_range, laneSet_iff])
  case sel => exact deliversOne_deliver s fun i hi => getLsbD_select _ _ _ i hi
  case pand => exact deliversOne_allBits s (Bool.and_eq_true_iff)
  case por => exact deliversOne_allBits s (Bool.or_eq_true_iff)
  case pxor => exact deliversOne_allBits s bne_iff_ne
  case pnot => exact deliversOne_allBits s (Bool.not_eq_true' _).to_iff
  case mask32 => exact deliversOne_maskOp s
  case mask16 => exact deliversOne_maskOp s
  case mask8 => exact deliversOne_maskOp s

end Sys2Proof.LampIntegerProofs
end
